-- ==== Sys2Proof/Word.lean ====
section
/-! DEFINITION. The word types of the ASDU frame parser: bits, bytes, and the 16-bit address of an
information object. Bit 7 of a byte is its most significant bit (spec/00_scope.md R7). The bit-field and
byte-order helpers stand in `Decode.lean` and `Machine/Operands.lean`. -/

namespace Sys2Proof

/-- One bit (R7). -/
abbrev Bit := BitVec 1

/-- One byte of WIRE, of a record register or of an element group (R7, R8, R21). -/
abbrev Byte := BitVec 8

/-- An information object address: 2 bytes (R2, R29). -/
abbrev Addr := BitVec 16

end Sys2Proof
end

