-- ==== Sys2Proof/Config.lean ====
section
/-! DEFINITION. What an implementation of the block fixes (spec/00_scope.md R6): the constants of this hardware, and the
form of the three OPEN parameters BUFSZ, REGISTRY and LAYOUTS, which are one argument of the model, `Params`. A state
carries its block's `Params` (`Machine/State.lean`), and no step changes it. The values the spec gives for this hardware
are `specParams` of `Machine/Registry.lean`; what R6 demands of any value is `Params.valid` of `Machine/Params.lean`. -/

namespace Sys2Proof

/-! ## The constants -/

/-- NSLOT, the number of slots of the object store: 127, FIXED (R6, R29). -/
abbrev Config.nslot : Nat := 127

/-- GMAX, the size of a slot's element group in bytes: 12, the largest group of the registry (R6, R29, R32). -/
abbrev Config.gmax : Nat := 12

/-- The 40 supported type identifiers in rising order: the key set of the registry, FIXED (R6, R32). -/
def Config.typeIds : List Byte :=
  [1, 2, 3, 4, 5, 6, 7, 8, 9, 10, 11, 12, 13, 14, 15, 16, 17, 18, 19, 20, 21]
  ++ [30, 31, 32, 33, 34, 35, 36, 37, 38, 39, 40, 45, 46, 47, 48, 49, 50, 51, 70]

/-! ## The form of the OPEN parameters -/

/-- The 20 element kinds and the 2 time tags (R90). -/
inductive Kind where
  | siq | diq | qds | vti | bsi | nva | sva | r32 | bcr | sep | cp16 | spe | qdp | oci | scd | coi
  | sco | dco | rco | qos | cp24 | cp56
deriving DecidableEq, Repr

/-- The time tag a type identifier's group ends with (R32). -/
inductive TimeTag where
  | none | cp24 | cp56
deriving DecidableEq, Repr

/-- The field names of the element kinds and time tags (R141, R142, R151 to R166, R211 to R214). -/
inductive Field where
  | iv | nt | sb | bl | res | spi | dpi | ov | t | val | bits | raw | cnt | ca | cy | sqn | st | cd | ms
  | ei | es | srd | sie | sl3 | sl2 | sl1 | gs | cl3 | cl2 | cl1 | gc | lpc | cause
  | se | qu | scs | dcs | rcs | ql
  | sub | min | su | res1 | hour | dow | day | res2 | mon | res3 | year
deriving DecidableEq, Repr

/-- A field's place in an element, read as one little-endian number: its lowest bit, counted from bit 0 of the
element's first byte, and its width. Bit k of byte j is bit 8 * j + k, and a multi-byte scalar is the same run of bits
by R61. -/
structure BitField where
  lo : Nat
  width : Nat
deriving DecidableEq, Repr

/-- The layout of one kind: its size in bytes (R90) and the place of each of its fields (R140, R150). -/
structure KindLayout where
  size : Nat
  fields : List (Field × BitField)
deriving DecidableEq, Repr

/-- The LAYOUTS parameter: one layout for each of the 20 element kinds (R6). The two time tags are from the source and
are no part of it (spec/92_eei_decisions.md D19 and its list of parameters). -/
structure Layouts where
  siq : KindLayout
  diq : KindLayout
  qds : KindLayout
  vti : KindLayout
  bsi : KindLayout
  nva : KindLayout
  sva : KindLayout
  r32 : KindLayout
  bcr : KindLayout
  sep : KindLayout
  cp16 : KindLayout
  spe : KindLayout
  qdp : KindLayout
  oci : KindLayout
  scd : KindLayout
  coi : KindLayout
  sco : KindLayout
  dco : KindLayout
  rco : KindLayout
  qos : KindLayout
deriving DecidableEq, Repr

/-- A registry row (R32): the type identifier, the element kinds of its group in wire order (the time tag last), the
time tag, and whether SQ = 1 is legal. -/
structure Row where
  ti : Byte
  group : List Kind
  tag : TimeTag
  seqLegal : Bool
deriving DecidableEq, Repr

/-- The OPEN parameters (R6): a model "takes" them "as configuration" (spec/45_type_registry.md). -/
structure Params where
  /-- BUFSZ, the size of the WIRE buffer in bytes. -/
  bufsz : Nat
  /-- REGISTRY, one row for each of the 40 type identifiers. -/
  registry : List Row
  /-- LAYOUTS, the layout of each element kind. -/
  layouts : Layouts
deriving DecidableEq, Repr

end Sys2Proof
end

