-- ==== Sys2Proof/Syntax.lean ====
section
/-! DEFINITION. The whole syntax: the 48 instructions of spec/opcode_table.json and the host's own steps
(spec/46_host_operations.md R275 to R277).

THE INSTRUCTION WORD. The table matches a link-level row on the byte at offset 0 of WIRE, an ASDU-level row on
the halfword TI + 256 * VSQ, and a command row on the 2-bit CMD.OP (spec/30_encoding.md R94). An `Instr` is that
word: a link row has no operand in it, an ASDU row has its VSQ byte, as SQ and NUM where R220 makes both values of SQ
legal. Which types may have SQ = 1 is the registry's, an OPEN parameter (spec/00_scope.md R6), so it is no part of the
syntax: `Instr.wellFormed` and `decode` read it there, and a type that R220 makes sequence-illegal takes the VSQ byte whole
(assumption log 12).
The bytes after the word (control byte, link address, payload, cause, common address, addresses, element groups) are the
instruction's memory operands: its meaning reads them from WIRE, since each of them has its own presence test and those
tests are ordered (spec/60_exceptions.md R297, R298). -/

namespace Sys2Proof

/-- The instructions: one constructor per row of spec/opcode_table.json, in the table's order. -/
inductive Instr where
  /-- ACK: start byte E5 (R110). -/
  | ack
  /-- NACK: start byte A2 (R111). -/
  | nack
  /-- FIXED: start byte 10 (R112). -/
  | fixedFrame
  /-- VARIABLE: start byte 68 (R113). -/
  | variableFrame
  /-- M_SP_NA_1: TI 1, single-point information; sequence-legal in R220 (R221). -/
  | mSpNa1 (sq : Bit) (num : BitVec 7)
  /-- M_SP_TA_1: TI 2, single-point information with time tag; sequence-illegal in R220 (R222). -/
  | mSpTa1 (vsq : Byte)
  /-- M_DP_NA_1: TI 3, double-point information; sequence-legal in R220 (R223). -/
  | mDpNa1 (sq : Bit) (num : BitVec 7)
  /-- M_DP_TA_1: TI 4, double-point information with time tag; sequence-illegal in R220 (R224). -/
  | mDpTa1 (vsq : Byte)
  /-- M_ST_NA_1: TI 5, step position information; sequence-legal in R220 (R225). -/
  | mStNa1 (sq : Bit) (num : BitVec 7)
  /-- M_ST_TA_1: TI 6, step position information with time tag; sequence-illegal in R220 (R226). -/
  | mStTa1 (vsq : Byte)
  /-- M_BO_NA_1: TI 7, bitstring of 32 bit; sequence-legal in R220 (R227). -/
  | mBoNa1 (sq : Bit) (num : BitVec 7)
  /-- M_BO_TA_1: TI 8, bitstring of 32 bit with time tag; sequence-illegal in R220 (R228). -/
  | mBoTa1 (vsq : Byte)
  /-- M_ME_NA_1: TI 9, measured value, normalized value; sequence-legal in R220 (R229). -/
  | mMeNa1 (sq : Bit) (num : BitVec 7)
  /-- M_ME_TA_1: TI 10, measured value, normalized value with time tag; sequence-illegal in R220 (R230). -/
  | mMeTa1 (vsq : Byte)
  /-- M_ME_NB_1: TI 11, measured value, scaled value; sequence-legal in R220 (R231). -/
  | mMeNb1 (sq : Bit) (num : BitVec 7)
  /-- M_ME_TB_1: TI 12, measured value, scaled value with time tag; sequence-illegal in R220 (R232). -/
  | mMeTb1 (vsq : Byte)
  /-- M_ME_NC_1: TI 13, measured value, short floating point number; sequence-legal in R220 (R233). -/
  | mMeNc1 (sq : Bit) (num : BitVec 7)
  /-- M_ME_TC_1: TI 14, measured value, short floating point number with time tag; sequence-illegal in R220 (R234). -/
  | mMeTc1 (vsq : Byte)
  /-- M_IT_NA_1: TI 15, integrated totals; sequence-legal in R220 (R235). -/
  | mItNa1 (sq : Bit) (num : BitVec 7)
  /-- M_IT_TA_1: TI 16, integrated totals with time tag; sequence-illegal in R220 (R236). -/
  | mItTa1 (vsq : Byte)
  /-- M_EP_TA_1: TI 17, event of protection equipment with time tag; sequence-illegal in R220 (R237). -/
  | mEpTa1 (vsq : Byte)
  /-- M_EP_TB_1: TI 18, packed start events of protection equipment with time tag; sequence-illegal in R220 (R238). -/
  | mEpTb1 (vsq : Byte)
  /-- M_EP_TC_1: TI 19, packed output circuit information with time tag; sequence-illegal in R220 (R239). -/
  | mEpTc1 (vsq : Byte)
  /-- M_PS_NA_1: TI 20, packed single-point information with status change detection; sequence-legal in R220 (R240). -/
  | mPsNa1 (sq : Bit) (num : BitVec 7)
  /-- M_ME_ND_1: TI 21, measured value, normalized value without quality descriptor; sequence-legal in R220 (R241). -/
  | mMeNd1 (sq : Bit) (num : BitVec 7)
  /-- M_SP_TB_1: TI 30, single-point information with time tag CP56; sequence-illegal in R220 (R242). -/
  | mSpTb1 (vsq : Byte)
  /-- M_DP_TB_1: TI 31, double-point information with time tag CP56; sequence-illegal in R220 (R243). -/
  | mDpTb1 (vsq : Byte)
  /-- M_ST_TB_1: TI 32, step position information with time tag CP56; sequence-illegal in R220 (R244). -/
  | mStTb1 (vsq : Byte)
  /-- M_BO_TB_1: TI 33, bitstring of 32 bit with time tag CP56; sequence-illegal in R220 (R245). -/
  | mBoTb1 (vsq : Byte)
  /-- M_ME_TD_1: TI 34, measured value, normalized value with time tag CP56; sequence-illegal in R220 (R246). -/
  | mMeTd1 (vsq : Byte)
  /-- M_ME_TE_1: TI 35, measured value, scaled value with time tag CP56; sequence-illegal in R220 (R247). -/
  | mMeTe1 (vsq : Byte)
  /-- M_ME_TF_1: TI 36, measured value, short floating point number with time tag CP56; sequence-illegal in R220
  (R248). -/
  | mMeTf1 (vsq : Byte)
  /-- M_IT_TB_1: TI 37, integrated totals with time tag CP56; sequence-illegal in R220 (R249). -/
  | mItTb1 (vsq : Byte)
  /-- M_EP_TD_1: TI 38, event of protection equipment with time tag CP56; sequence-illegal in R220 (R250). -/
  | mEpTd1 (vsq : Byte)
  /-- M_EP_TE_1: TI 39, packed start events with time tag CP56; sequence-illegal in R220 (R251). -/
  | mEpTe1 (vsq : Byte)
  /-- M_EP_TF_1: TI 40, packed output circuit information with time tag CP56; sequence-illegal in R220 (R252). -/
  | mEpTf1 (vsq : Byte)
  /-- C_SC_NA_1: TI 45, single command; sequence-illegal in R220 (R253). -/
  | cScNa1 (vsq : Byte)
  /-- C_DC_NA_1: TI 46, double command; sequence-illegal in R220 (R254). -/
  | cDcNa1 (vsq : Byte)
  /-- C_RC_NA_1: TI 47, regulating step command; sequence-illegal in R220 (R255). -/
  | cRcNa1 (vsq : Byte)
  /-- C_SE_NA_1: TI 48, set-point command, normalized value; sequence-illegal in R220 (R256). -/
  | cSeNa1 (vsq : Byte)
  /-- C_SE_NB_1: TI 49, set-point command, scaled value; sequence-illegal in R220 (R257). -/
  | cSeNb1 (vsq : Byte)
  /-- C_SE_NC_1: TI 50, set-point command, short floating point number; sequence-illegal in R220 (R258). -/
  | cSeNc1 (vsq : Byte)
  /-- C_BO_NA_1: TI 51, bitstring of 32 bit command; sequence-illegal in R220 (R259). -/
  | cBoNa1 (vsq : Byte)
  /-- M_EI_NA_1: TI 70, end of initialization; sequence-illegal in R220 (R260). -/
  | mEiNa1 (vsq : Byte)
  /-- DEC_FRAME: CMD.OP = 0 (R271). -/
  | decFrame
  /-- ENC_FRAME: CMD.OP = 1 (R272). -/
  | encFrame
  /-- DEC_ASDU: CMD.OP = 2 (R273). -/
  | decAsdu
  /-- ENC_ASDU: CMD.OP = 3 (R274). -/
  | encAsdu
deriving DecidableEq, Repr

/-- The three levels at which an encoding is selected (R80, R94): by the byte at offset 0 of WIRE, by the type
identifier and VSQ of an ASDU, or by CMD.OP. -/
inductive Level where
  | link | asdu | cmd
deriving DecidableEq, Repr

/-- The scalar registers of REC (R26, R27, R28). -/
inductive RecReg where
  | kind | sc | ctrl | laddr | len | cs | hasasdu | ti | vsq | cotb | ca
deriving DecidableEq, Repr

/-- One slot of the object store (R29): the object's address ADDR[i] and its element group EG[i], 12 bytes. -/
structure Slot where
  /-- ADDR[i], 16 bits. -/
  addr : Addr
  /-- EG[i][0] to EG[i][11]. -/
  eg : Vector Byte Config.gmax
deriving DecidableEq, Repr

/-- What the host can read (R276). -/
inductive ReadTarget where
  | wire (k : Nat)
  | wlen
  | cfg
  | cmd
  | status
  | reg (r : RecReg)
  | addr (i : Nat)
  | eg (i j : Nat)
  | fld (i : Nat) (k : Kind) (f : Field)
deriving DecidableEq, Repr

/-- A host access: every host step but START (R275, R276, R277). A value operand is a number where the spec
refuses values that do not fit, and a bit vector where it does not. -/
inductive Access where
  /-- `WIRE[k] <- b`. -/
  | wire (k : Nat) (b : Nat)
  /-- `WLEN <- v`. -/
  | wlen (v : Nat)
  /-- `CFG.CSMODE <- v`. -/
  | csmode (v : BitVec 2)
  /-- `CFG.CSGEN <- v`. -/
  | csgen (v : Bit)
  /-- `REC.<register> <- v`. -/
  | reg (r : RecReg) (v : Nat)
  /-- `ADDR[i] <- v`. -/
  | addr (i : Nat) (v : Nat)
  /-- `EG[i][j] <- b`. -/
  | eg (i j : Nat) (b : Nat)
  /-- `FLD(i, K.f) <- v`. -/
  | fld (i : Nat) (k : Kind) (f : Field) (v : Nat)
  /-- `STATUS <- v`. -/
  | status (v : Nat)
  /-- A read; its value is `Machine.hostRead`. -/
  | read (t : ReadTarget)
  /-- RESET. R44 leaves the contents of WIRE and of the object store after it unspecified, "a free draw made
  once at reset": the draw comes with the step, the bytes of WIRE from offset 0 and the slots from slot 0
  (what the lists do not cover is drawn as 0; assumption log 4). -/
  | reset (wire : List Byte) (slots : List Slot)
deriving DecidableEq, Repr

/-- A host step (R279): a START, which is the write `CMD <- op` (R270), or an access. -/
inductive HostAction where
  | start (op : BitVec 2)
  | access (a : Access)
deriving DecidableEq, Repr

end Sys2Proof
end

