-- ==== Sys2Proof/Machine/Record.lean ====
section
/-! DEFINITION. The abstract records of spec/00_scope.md R11 (Control, Objs, Asdu, Frame), the eight error kinds of
spec/60_exceptions.md R290, and what a pure decode returns. -/

namespace Sys2Proof.Machine

/-- The error kinds (R290). -/
inductive ErrKind where
  | unknownFrameStart | lengthMismatch | truncatedInput | unterminatedFrame
  | unknownTypeId | illegalSequenceMode | vsqNumberZero | checksumMismatch
deriving DecidableEq, Repr

/-- An error and the position it records (R10 `raise E(p)`, R291). -/
structure CodecErr where
  kind : ErrKind
  pos : Nat
deriving DecidableEq, Repr

/-- The fields of a control byte (R11, R84). -/
structure Control where
  res : Bit
  prm : Bit
  fcb : Bit
  fcv : Bit
  fc : BitVec 4
deriving DecidableEq, Repr

/-- The information objects of an ASDU (R11): with SQ = 0 each has its own address; with SQ = 1 there is one base
address. An element group is kept as its raw bytes. -/
inductive Objs where
  | discrete (objs : List (Addr × List Byte))
  | sequence (base : Addr) (groups : List (List Byte))
deriving DecidableEq, Repr

/-- An ASDU (R11). -/
structure Asdu where
  ti : Byte
  sq : Bit
  num : BitVec 7
  test : Bit
  neg : Bit
  cot : BitVec 6
  ca : Byte
  objs : Objs
deriving DecidableEq, Repr

/-- A link frame (R11). -/
inductive Frame where
  | noFrame
  | singleChar (neg : Bit)
  | fixed (ctl : Control) (addr cs : Byte)
  | variableFrame (ctl : Control) (addr cs : Byte) (asdu : Option Asdu)
deriving DecidableEq, Repr

/-- What a record stands for (R34): a link frame or a bare ASDU. -/
inductive Record where
  | frame (f : Frame)
  | asdu (a : Asdu)
deriving DecidableEq, Repr

/-- The result of `dec_frame` (R116): "a `Frame` record, the value of REC.LEN, and the flag CSERR". -/
structure FrameResult where
  frame : Frame
  len : Byte
  cserr : Bit
deriving DecidableEq, Repr

end Sys2Proof.Machine
end

