-- ==== Sys2Proof/Machine/Flags.lean ====
section
/-! DEFINITION. The block's one computed flag, CSERR, and the checksum behind it (spec/40_link_frames.md R114,
R123). The block has no arithmetic condition codes (spec/10_state.md R33). -/

namespace Sys2Proof.Machine

/-- CSMODE values (R23). -/
abbrev csIgnore : BitVec 2 := 0
abbrev csFlag : BitVec 2 := 1
abbrev csFatal : BitVec 2 := 2

/-- `cssum(bytes)`: the sum of the bytes mod 256 (R114). -/
def cssum : List Byte → Byte
  | [] => 0
  | b :: bs => b + cssum bs

/-- `cscheck(s, bytes)` under the policy CSMODE (R114). -/
def cscheck (mode : BitVec 2) (s : Byte) (bytes : List Byte) : Bit :=
  if mode = csIgnore then 0 else if s = cssum bytes then 0 else 1

/-- `csgen(cs, body)` under CSMODE and CSGEN (R123): the checksum byte an encode writes, and CSERR; or
ChecksumMismatch at position 0. -/
def csgen (mode : BitVec 2) (gen : Bit) (cs : Byte) (body : List Byte) : Except CodecErr (Byte × Bit) :=
  if gen = 1 then .ok (cssum body, 0)
  else if mode = csFatal ∧ cscheck mode cs body = 1 then .error ⟨.checksumMismatch, 0⟩
  else .ok (cs, cscheck mode cs body)

end Sys2Proof.Machine
end

