-- ==== Sys2Proof/Machine/Layouts.lean ====
section
/-! DEFINITION. The value of the LAYOUTS parameter for this hardware (spec/00_scope.md R6): the sizes of
spec/30_encoding.md R90 and the tables of spec/42_elements.md R151 to R166 and spec/44_commands.md R211 to R214. Most of
it is the spec's [from general knowledge, not in source] (G3); the model follows the spec (assumption log 3). -/

namespace Sys2Proof

/-- The layouts of the 20 element kinds. -/
def specLayouts : Layouts :=
  { -- R151
    siq := ⟨1, [(.iv, ⟨7, 1⟩), (.nt, ⟨6, 1⟩), (.sb, ⟨5, 1⟩), (.bl, ⟨4, 1⟩), (.res, ⟨1, 3⟩), (.spi, ⟨0, 1⟩)]⟩
    -- R152
    diq := ⟨1, [(.iv, ⟨7, 1⟩), (.nt, ⟨6, 1⟩), (.sb, ⟨5, 1⟩), (.bl, ⟨4, 1⟩), (.res, ⟨2, 2⟩), (.dpi, ⟨0, 2⟩)]⟩
    -- R153
    qds := ⟨1, [(.iv, ⟨7, 1⟩), (.nt, ⟨6, 1⟩), (.sb, ⟨5, 1⟩), (.bl, ⟨4, 1⟩), (.res, ⟨1, 3⟩), (.ov, ⟨0, 1⟩)]⟩
    -- R154
    vti := ⟨1, [(.t, ⟨7, 1⟩), (.val, ⟨0, 7⟩)]⟩
    -- R155
    bsi := ⟨4, [(.bits, ⟨0, 32⟩)]⟩
    -- R156
    nva := ⟨2, [(.raw, ⟨0, 16⟩)]⟩
    -- R157
    sva := ⟨2, [(.raw, ⟨0, 16⟩)]⟩
    -- R158
    r32 := ⟨4, [(.raw, ⟨0, 32⟩)]⟩
    -- R159
    bcr := ⟨5, [(.cnt, ⟨0, 32⟩), (.iv, ⟨39, 1⟩), (.ca, ⟨38, 1⟩), (.cy, ⟨37, 1⟩), (.sqn, ⟨32, 5⟩)]⟩
    -- R160
    sep := ⟨1, [(.iv, ⟨7, 1⟩), (.nt, ⟨6, 1⟩), (.sb, ⟨5, 1⟩), (.bl, ⟨4, 1⟩), (.ei, ⟨3, 1⟩), (.res, ⟨2, 1⟩),
      (.es, ⟨0, 2⟩)]⟩
    -- R161
    cp16 := ⟨2, [(.ms, ⟨0, 16⟩)]⟩
    -- R162
    spe := ⟨1, [(.res, ⟨6, 2⟩), (.srd, ⟨5, 1⟩), (.sie, ⟨4, 1⟩), (.sl3, ⟨3, 1⟩), (.sl2, ⟨2, 1⟩), (.sl1, ⟨1, 1⟩),
      (.gs, ⟨0, 1⟩)]⟩
    -- R163
    qdp := ⟨1, [(.iv, ⟨7, 1⟩), (.nt, ⟨6, 1⟩), (.sb, ⟨5, 1⟩), (.bl, ⟨4, 1⟩), (.ei, ⟨3, 1⟩), (.res, ⟨0, 3⟩)]⟩
    -- R164
    oci := ⟨1, [(.res, ⟨4, 4⟩), (.cl3, ⟨3, 1⟩), (.cl2, ⟨2, 1⟩), (.cl1, ⟨1, 1⟩), (.gc, ⟨0, 1⟩)]⟩
    -- R165
    scd := ⟨4, [(.st, ⟨0, 16⟩), (.cd, ⟨16, 16⟩)]⟩
    -- R166
    coi := ⟨1, [(.lpc, ⟨7, 1⟩), (.cause, ⟨0, 7⟩)]⟩
    -- R211
    sco := ⟨1, [(.se, ⟨7, 1⟩), (.qu, ⟨2, 5⟩), (.res, ⟨1, 1⟩), (.scs, ⟨0, 1⟩)]⟩
    -- R212
    dco := ⟨1, [(.se, ⟨7, 1⟩), (.qu, ⟨2, 5⟩), (.dcs, ⟨0, 2⟩)]⟩
    -- R213
    rco := ⟨1, [(.se, ⟨7, 1⟩), (.qu, ⟨2, 5⟩), (.rcs, ⟨0, 2⟩)]⟩
    -- R214
    qos := ⟨1, [(.se, ⟨7, 1⟩), (.ql, ⟨0, 7⟩)]⟩ }

end Sys2Proof
end

