-- ==== Sys2Proof/Machine/Params.lean ====
section
/-! DEFINITION. What the model reads from its OPEN parameters (spec/00_scope.md R6): the registry's functions
(spec/10_state.md R32), the kinds' layouts (spec/42_elements.md R150) with the two time tags that are not open
(spec/41_timestamps.md R141, R142), the place of a field in a group (spec/42_elements.md R167), and what R6 demands of
any value of the parameters. -/

namespace Sys2Proof

/-- The value of the first entry of a list with a key. -/
def assoc {α β : Type} [DecidableEq α] (a : α) : List (α × β) → Option β
  | [] => none
  | (x, y) :: rest => if x = a then some y else assoc a rest

/-! ## Layouts -/

/-- The three bytes CP24 and CP56 share (R141, R142): MS, IV, SUB, MIN. -/
def timeFields : List (Field × BitField) :=
  [(.ms, ⟨0, 16⟩), (.iv, ⟨23, 1⟩), (.sub, ⟨22, 1⟩), (.min, ⟨16, 6⟩)]

/-- CP24, 3 bytes (R141). -/
def layoutCp24 : KindLayout := ⟨3, timeFields⟩

/-- CP56, 7 bytes (R142). -/
def layoutCp56 : KindLayout :=
  ⟨7, timeFields ++
    [(.su, ⟨31, 1⟩), (.res1, ⟨29, 2⟩), (.hour, ⟨24, 5⟩), (.dow, ⟨37, 3⟩), (.day, ⟨32, 5⟩), (.res2, ⟨44, 4⟩),
      (.mon, ⟨40, 4⟩), (.res3, ⟨55, 1⟩), (.year, ⟨48, 7⟩)]⟩

/-- The layout of a kind: an element kind's is the parameter's, a time tag's is fixed. -/
def Layouts.get (l : Layouts) : Kind → KindLayout
  | .siq => l.siq
  | .diq => l.diq
  | .qds => l.qds
  | .vti => l.vti
  | .bsi => l.bsi
  | .nva => l.nva
  | .sva => l.sva
  | .r32 => l.r32
  | .bcr => l.bcr
  | .sep => l.sep
  | .cp16 => l.cp16
  | .spe => l.spe
  | .qdp => l.qdp
  | .oci => l.oci
  | .scd => l.scd
  | .coi => l.coi
  | .sco => l.sco
  | .dco => l.dco
  | .rco => l.rco
  | .qos => l.qos
  | .cp24 => layoutCp24
  | .cp56 => layoutCp56

/-- The size of a kind in bytes (R90). -/
def Params.kindSize (p : Params) (k : Kind) : Nat := (p.layouts.get k).size

/-- The fields of a kind and their places (R150). -/
def Params.layout (p : Params) (k : Kind) : List (Field × BitField) := (p.layouts.get k).fields

/-- The place of a field in its element; none when the kind has no such field. -/
def Params.fieldOf (p : Params) (k : Kind) (f : Field) : Option BitField := assoc f (p.layout k)

/-! ## The registry (R32) -/

/-- The first row of a list with a type identifier. -/
def findRow (ti : Byte) : List Row → Option Row
  | [] => none
  | r :: rest => if r.ti = ti then some r else findRow ti rest

/-- The row of a type identifier; none exactly when it is not `known(ti)`. -/
def Params.lookup (p : Params) (ti : Byte) : Option Row := findRow ti p.registry

/-- The sum of the sizes of a list of kinds. -/
def Params.groupSize (p : Params) : List Kind → Nat
  | [] => 0
  | k :: ks => p.kindSize k + p.groupSize ks

/-- GSIZE of a row: the sum of the sizes of its kinds. -/
def Params.gsize (p : Params) (r : Row) : Nat := p.groupSize r.group

/-- `known(ti)`. -/
def Params.known (p : Params) (ti : Byte) : Bool := (p.lookup ti).isSome

/-- `GROUP(ti)`; none when the type is unknown. -/
def Params.groupOf (p : Params) (ti : Byte) : Option (List Kind) := (p.lookup ti).map Row.group

/-- `GSIZE(ti)`; none when the type is unknown. -/
def Params.gsizeOf (p : Params) (ti : Byte) : Option Nat := (p.lookup ti).map p.gsize

/-- `TIMETAG(ti)`; none when the type is unknown. -/
def Params.timeTagOf (p : Params) (ti : Byte) : Option TimeTag := (p.lookup ti).map Row.tag

/-- `SEQ_LEGAL(ti)`: false when the type is unknown. -/
def Params.seqLegal (p : Params) (ti : Byte) : Bool :=
  match p.lookup ti with
  | some row => row.seqLegal
  | none => false

/-! ## The place of a field in a group (R31, R167) -/

/-- The byte offset of a kind in a group (R167): no group contains the same kind twice. -/
def Params.kindOffset (p : Params) (k : Kind) : List Kind → Option Nat
  | [] => none
  | x :: xs => if x = k then some 0 else (p.kindOffset k xs).map (p.kindSize x + ·)

/-- The place of field f of kind k in the 12 bytes of EG[i], read as one little-endian number, under the group of a
type identifier; none when the type is unknown, the kind is not in its group, or the kind has no such field. -/
def Params.fldPlace (p : Params) (ti : Byte) (k : Kind) (f : Field) : Option BitField :=
  match p.lookup ti with
  | none => none
  | some row =>
    match p.kindOffset k row.group, p.fieldOf k f with
    | some off, some b => some ⟨8 * off + b.lo, b.width⟩
    | _, _ => none

/-! ## The values R6 allows -/

/-- The 20 element kinds, whose layouts are the parameter's. -/
def openKinds : List Kind :=
  [.siq, .diq, .qds, .vti, .bsi, .nva, .sva, .r32, .bcr, .sep, .cp16, .spe, .qdp, .oci, .scd, .coi]
  ++ [.sco, .dco, .rco, .qos]

/-- A kind's layout divides its bits: field names differ, every field lies in the element, and every bit of it belongs
to exactly one field (R140, R150). -/
def KindLayout.valid (l : KindLayout) : Bool :=
  decide ((l.fields.map Prod.fst).Nodup) &&
    l.fields.all (fun e => decide (e.2.lo + e.2.width ≤ 8 * l.size)) &&
    (List.range (8 * l.size)).all fun b =>
      (l.fields.filter fun e => decide (e.2.lo ≤ b ∧ b < e.2.lo + e.2.width)).length == 1

/-- What the source itself says of the layouts, where R155 to R159 and R210 cite it: the numbers' sizes and places, the
5-bit sequence number, the select bit and the 5- or 7-bit qualifier. No value of LAYOUTS differs in these (R6: "except
where those files cite the source"). -/
def Layouts.keepsSource (l : Layouts) : Bool :=
  (l.bsi == ⟨4, [(.bits, ⟨0, 32⟩)]⟩) && (l.nva == ⟨2, [(.raw, ⟨0, 16⟩)]⟩) && (l.sva == ⟨2, [(.raw, ⟨0, 16⟩)]⟩) &&
    (l.r32 == ⟨4, [(.raw, ⟨0, 32⟩)]⟩) &&
    (l.bcr.size == 5 && assoc .cnt l.bcr.fields == some ⟨0, 32⟩ &&
      (assoc .sqn l.bcr.fields).map BitField.width == some 5) &&
    ([l.sco, l.dco, l.rco, l.qos].all fun k => k.size == 1 && (assoc .se k.fields).map BitField.width == some 1) &&
    ([l.sco, l.dco, l.rco].all fun k => (assoc .qu k.fields).map BitField.width == some 5) &&
    ((assoc .ql l.qos.fields).map BitField.width == some 7)

/-- The time tag a group ends with (R32). -/
def tagOf (g : List Kind) : TimeTag :=
  if g.getLast? = some .cp24 then .cp24 else if g.getLast? = some .cp56 then .cp56 else .none

/-- What R32 and R167 demand of a registry row: no kind twice, GSIZE 1 to 12, the time tag the one the group ends
with. DESIGN CHOICE, safe (log 13): a row may hold SCO, DCO, RCO or QOS anywhere in its group. R210 (90_conflicts.md C6)
puts the byte of SE and the qualifier last in the group, R6 leaves REGISTRY's contents open, and the spec does not say
whether the first binds the second; no such demand is made here. `specRegistry` has that byte last. -/
def Params.rowValid (p : Params) (r : Row) : Bool :=
  decide r.group.Nodup && decide (1 ≤ p.gsize r) && decide (p.gsize r ≤ Config.gmax) && (r.tag == tagOf r.group)

/-- The values of the parameters that R6 allows: BUFSZ 1782 to 4095; one row for each of the 40 type identifiers, and
row 1 as the source gives it (no time tag, sequence-legal; R220); layouts that divide their elements' bits and keep what
the source says. The place of a command element in its group is left open: DESIGN CHOICE, log 13. -/
def Params.valid (p : Params) : Bool :=
  decide (1782 ≤ p.bufsz) && decide (p.bufsz ≤ 4095) && decide (p.registry.map Row.ti = Config.typeIds) &&
    p.registry.all p.rowValid && p.seqLegal 1 && (p.timeTagOf 1 == some .none) &&
    openKinds.all (fun k => (p.layouts.get k).valid) && p.layouts.keepsSource

end Sys2Proof
end

