-- ==== Sys2Proof/Machine/Registry.lean ====
section
/-! DEFINITION. The value of the REGISTRY parameter for this hardware (spec/00_scope.md R6; spec/10_state.md R32): one
row for each of the 40 type identifiers, with the content of spec/45_type_registry.md R220; and the parameters as this
hardware has them. The key set is from the source; the rest of a row is the spec's [from general knowledge, not in
source] (G2) and the model follows the spec (assumption log 3). -/

namespace Sys2Proof

/-- TI 1, M_SP_NA_1 (R221). -/
def rowMSpNa1 : Row := ⟨1, [.siq], .none, true⟩

/-- TI 2, M_SP_TA_1 (R222). -/
def rowMSpTa1 : Row := ⟨2, [.siq, .cp24], .cp24, false⟩

/-- TI 3, M_DP_NA_1 (R223). -/
def rowMDpNa1 : Row := ⟨3, [.diq], .none, true⟩

/-- TI 4, M_DP_TA_1 (R224). -/
def rowMDpTa1 : Row := ⟨4, [.diq, .cp24], .cp24, false⟩

/-- TI 5, M_ST_NA_1 (R225). -/
def rowMStNa1 : Row := ⟨5, [.vti, .qds], .none, true⟩

/-- TI 6, M_ST_TA_1 (R226). -/
def rowMStTa1 : Row := ⟨6, [.vti, .qds, .cp24], .cp24, false⟩

/-- TI 7, M_BO_NA_1 (R227). -/
def rowMBoNa1 : Row := ⟨7, [.bsi, .qds], .none, true⟩

/-- TI 8, M_BO_TA_1 (R228). -/
def rowMBoTa1 : Row := ⟨8, [.bsi, .qds, .cp24], .cp24, false⟩

/-- TI 9, M_ME_NA_1 (R229). -/
def rowMMeNa1 : Row := ⟨9, [.nva, .qds], .none, true⟩

/-- TI 10, M_ME_TA_1 (R230). -/
def rowMMeTa1 : Row := ⟨10, [.nva, .qds, .cp24], .cp24, false⟩

/-- TI 11, M_ME_NB_1 (R231). -/
def rowMMeNb1 : Row := ⟨11, [.sva, .qds], .none, true⟩

/-- TI 12, M_ME_TB_1 (R232). -/
def rowMMeTb1 : Row := ⟨12, [.sva, .qds, .cp24], .cp24, false⟩

/-- TI 13, M_ME_NC_1 (R233). -/
def rowMMeNc1 : Row := ⟨13, [.r32, .qds], .none, true⟩

/-- TI 14, M_ME_TC_1 (R234). -/
def rowMMeTc1 : Row := ⟨14, [.r32, .qds, .cp24], .cp24, false⟩

/-- TI 15, M_IT_NA_1 (R235). -/
def rowMItNa1 : Row := ⟨15, [.bcr], .none, true⟩

/-- TI 16, M_IT_TA_1 (R236). -/
def rowMItTa1 : Row := ⟨16, [.bcr, .cp24], .cp24, false⟩

/-- TI 17, M_EP_TA_1 (R237). -/
def rowMEpTa1 : Row := ⟨17, [.sep, .cp16, .cp24], .cp24, false⟩

/-- TI 18, M_EP_TB_1 (R238). -/
def rowMEpTb1 : Row := ⟨18, [.spe, .qdp, .cp16, .cp24], .cp24, false⟩

/-- TI 19, M_EP_TC_1 (R239). -/
def rowMEpTc1 : Row := ⟨19, [.oci, .qdp, .cp16, .cp24], .cp24, false⟩

/-- TI 20, M_PS_NA_1 (R240). -/
def rowMPsNa1 : Row := ⟨20, [.scd, .qds], .none, true⟩

/-- TI 21, M_ME_ND_1 (R241). -/
def rowMMeNd1 : Row := ⟨21, [.nva], .none, true⟩

/-- TI 30, M_SP_TB_1 (R242). -/
def rowMSpTb1 : Row := ⟨30, [.siq, .cp56], .cp56, false⟩

/-- TI 31, M_DP_TB_1 (R243). -/
def rowMDpTb1 : Row := ⟨31, [.diq, .cp56], .cp56, false⟩

/-- TI 32, M_ST_TB_1 (R244). -/
def rowMStTb1 : Row := ⟨32, [.vti, .qds, .cp56], .cp56, false⟩

/-- TI 33, M_BO_TB_1 (R245). -/
def rowMBoTb1 : Row := ⟨33, [.bsi, .qds, .cp56], .cp56, false⟩

/-- TI 34, M_ME_TD_1 (R246). -/
def rowMMeTd1 : Row := ⟨34, [.nva, .qds, .cp56], .cp56, false⟩

/-- TI 35, M_ME_TE_1 (R247). -/
def rowMMeTe1 : Row := ⟨35, [.sva, .qds, .cp56], .cp56, false⟩

/-- TI 36, M_ME_TF_1 (R248). -/
def rowMMeTf1 : Row := ⟨36, [.r32, .qds, .cp56], .cp56, false⟩

/-- TI 37, M_IT_TB_1 (R249). -/
def rowMItTb1 : Row := ⟨37, [.bcr, .cp56], .cp56, false⟩

/-- TI 38, M_EP_TD_1 (R250). -/
def rowMEpTd1 : Row := ⟨38, [.sep, .cp16, .cp56], .cp56, false⟩

/-- TI 39, M_EP_TE_1 (R251). -/
def rowMEpTe1 : Row := ⟨39, [.spe, .qdp, .cp16, .cp56], .cp56, false⟩

/-- TI 40, M_EP_TF_1 (R252). -/
def rowMEpTf1 : Row := ⟨40, [.oci, .qdp, .cp16, .cp56], .cp56, false⟩

/-- TI 45, C_SC_NA_1 (R253). -/
def rowCScNa1 : Row := ⟨45, [.sco], .none, false⟩

/-- TI 46, C_DC_NA_1 (R254). -/
def rowCDcNa1 : Row := ⟨46, [.dco], .none, false⟩

/-- TI 47, C_RC_NA_1 (R255). -/
def rowCRcNa1 : Row := ⟨47, [.rco], .none, false⟩

/-- TI 48, C_SE_NA_1 (R256). -/
def rowCSeNa1 : Row := ⟨48, [.nva, .qos], .none, false⟩

/-- TI 49, C_SE_NB_1 (R257). -/
def rowCSeNb1 : Row := ⟨49, [.sva, .qos], .none, false⟩

/-- TI 50, C_SE_NC_1 (R258). -/
def rowCSeNc1 : Row := ⟨50, [.r32, .qos], .none, false⟩

/-- TI 51, C_BO_NA_1 (R259). -/
def rowCBoNa1 : Row := ⟨51, [.bsi], .none, false⟩

/-- TI 70, M_EI_NA_1 (R260). -/
def rowMEiNa1 : Row := ⟨70, [.coi], .none, false⟩

/-- The value of REGISTRY for this hardware (R220). -/
def specRegistry : List Row :=
  [rowMSpNa1, rowMSpTa1, rowMDpNa1, rowMDpTa1, rowMStNa1, rowMStTa1, rowMBoNa1]
  ++ [rowMBoTa1, rowMMeNa1, rowMMeTa1, rowMMeNb1, rowMMeTb1, rowMMeNc1, rowMMeTc1]
  ++ [rowMItNa1, rowMItTa1, rowMEpTa1, rowMEpTb1, rowMEpTc1, rowMPsNa1, rowMMeNd1]
  ++ [rowMSpTb1, rowMDpTb1, rowMStTb1, rowMBoTb1, rowMMeTd1, rowMMeTe1, rowMMeTf1]
  ++ [rowMItTb1, rowMEpTd1, rowMEpTe1, rowMEpTf1, rowCScNa1, rowCDcNa1, rowCRcNa1]
  ++ [rowCSeNa1, rowCSeNb1, rowCSeNc1, rowCBoNa1, rowMEiNa1]

/-- The parameters with the spec's own tables and a BUFSZ. -/
def specTables (bufsz : Nat) : Params := { bufsz := bufsz, registry := specRegistry, layouts := specLayouts }

/-- The values the spec gives for this hardware (R6): its tables, and BUFSZ at its default 2048 (DESIGN CHOICE where a
state is built with no other, unsafe: R6 leaves the three OPEN; assumption log 1). -/
def specParams : Params := specTables 2048

end Sys2Proof
end

