-- ==== Sys2Proof/Machine/Vsq.lean ====
section
/-! DEFINITION. The bit fields of the variable structure qualifier, the second byte of an ASDU (spec/30_encoding.md R86,
spec/43_asdu_dispatch.md R181). -/

namespace Sys2Proof

/-- The SQ bit of a VSQ byte: bit 7 (R86). -/
def vsqSq (v : Byte) : Bit := v.extractLsb' 7 1

/-- The NUM field of a VSQ byte: bits 6:0 (R86). -/
def vsqNum (v : Byte) : BitVec 7 := v.extractLsb' 0 7

/-- The VSQ byte 128 * sq + num (R181). -/
def mkVsq (sq : Bit) (num : BitVec 7) : Byte := sq ++ num

end Sys2Proof
end

