-- ==== Sys2Proof/WellFormed.lean ====
section
/-! DEFINITION. Which instructions are well formed. The checks the encodings put on an operand are that NUM is not 0
(spec/30_encoding.md R86) and that SQ is 0 on a type whose registry row is sequence-illegal (R94), so well-formedness is
relative to the registry (spec/00_scope.md R6). -/

namespace Sys2Proof

/-- The type identifier and the VSQ byte of an ASDU-level instruction (R93); none for the other rows. -/
def Instr.asduWord : Instr → Option (Byte × Byte)
  | .ack | .nack | .fixedFrame | .variableFrame => none
  | .decFrame | .encFrame | .decAsdu | .encAsdu => none
  | .mSpNa1 sq num => some (1, mkVsq sq num)
  | .mSpTa1 vsq => some (2, vsq)
  | .mDpNa1 sq num => some (3, mkVsq sq num)
  | .mDpTa1 vsq => some (4, vsq)
  | .mStNa1 sq num => some (5, mkVsq sq num)
  | .mStTa1 vsq => some (6, vsq)
  | .mBoNa1 sq num => some (7, mkVsq sq num)
  | .mBoTa1 vsq => some (8, vsq)
  | .mMeNa1 sq num => some (9, mkVsq sq num)
  | .mMeTa1 vsq => some (10, vsq)
  | .mMeNb1 sq num => some (11, mkVsq sq num)
  | .mMeTb1 vsq => some (12, vsq)
  | .mMeNc1 sq num => some (13, mkVsq sq num)
  | .mMeTc1 vsq => some (14, vsq)
  | .mItNa1 sq num => some (15, mkVsq sq num)
  | .mItTa1 vsq => some (16, vsq)
  | .mEpTa1 vsq => some (17, vsq)
  | .mEpTb1 vsq => some (18, vsq)
  | .mEpTc1 vsq => some (19, vsq)
  | .mPsNa1 sq num => some (20, mkVsq sq num)
  | .mMeNd1 sq num => some (21, mkVsq sq num)
  | .mSpTb1 vsq => some (30, vsq)
  | .mDpTb1 vsq => some (31, vsq)
  | .mStTb1 vsq => some (32, vsq)
  | .mBoTb1 vsq => some (33, vsq)
  | .mMeTd1 vsq => some (34, vsq)
  | .mMeTe1 vsq => some (35, vsq)
  | .mMeTf1 vsq => some (36, vsq)
  | .mItTb1 vsq => some (37, vsq)
  | .mEpTd1 vsq => some (38, vsq)
  | .mEpTe1 vsq => some (39, vsq)
  | .mEpTf1 vsq => some (40, vsq)
  | .cScNa1 vsq => some (45, vsq)
  | .cDcNa1 vsq => some (46, vsq)
  | .cRcNa1 vsq => some (47, vsq)
  | .cSeNa1 vsq => some (48, vsq)
  | .cSeNb1 vsq => some (49, vsq)
  | .cSeNc1 vsq => some (50, vsq)
  | .cBoNa1 vsq => some (51, vsq)
  | .mEiNa1 vsq => some (70, vsq)

/-- The check of an ASDU word against a registry: the type has a row, NUM is 1 to 127 (R86, R182), and SQ is 0 unless
the row is sequence-legal (R94, R189). -/
def wordOk (rs : List Row) (ti vsq : Byte) : Bool :=
  match findRow ti rs with
  | none => false
  | some row => vsqNum vsq != 0 && (vsqSq vsq == 0 || row.seqLegal)

/-- An instruction is well formed under a registry. -/
def Instr.wellFormed (rs : List Row) (i : Instr) : Bool :=
  match i.asduWord with
  | some (ti, vsq) => wordOk rs ti vsq
  | none => true

end Sys2Proof
end

