-- ==== Sys2Proof/Decode.lean ====
section
/-! DEFINITION. The decoder, the encoder, and the reading of a word of spec/opcode_table.json. Every encoding is
selected at one of three levels (spec/30_encoding.md R80, R94), so decoding takes the level: at the link level the
bytes are WIRE from offset 0 (R92), at the ASDU level the bytes of the ASDU from its type identifier on (R93), at
the command level the byte that holds CMD.OP (spec/46_host_operations.md R270). At the ASDU level the registry, an OPEN
parameter (spec/00_scope.md R6), says which types exist and which may have SQ = 1. -/

namespace Sys2Proof

/-! ## The decoder -/

/-- Why bytes decode to no instruction. Each is the error of the spec that the engine reports for them. -/
inductive Reject where
  /-- Too few bytes to hold the instruction word (R95: TruncatedInput). -/
  | truncatedInput
  /-- The byte at offset 0 is none of E5, A2, 10, 68 (R92: UnknownFrameStart). -/
  | unknownFrameStart
  /-- The type identifier is none of the 40 (R93: UnknownTypeId). -/
  | unknownTypeId
  /-- SQ = 1 on a type that is sequence-illegal (R94: IllegalSequenceMode). -/
  | illegalSequenceMode
deriving DecidableEq, Repr

/-- Link level: dispatch on the byte at offset 0 (R92). -/
def decodeLink : List Byte → Except Reject Instr
  | [] => .error .truncatedInput
  | b :: _ =>
    match b.toNat with
    | 0xE5 => .ok .ack
    | 0xA2 => .ok .nack
    | 0x10 => .ok .fixedFrame
    | 0x68 => .ok .variableFrame
    | _ => .error .unknownFrameStart

/-- The instruction of a type identifier and a VSQ byte (R93); none when the type identifier is none of the 40. -/
def typeInstr (ti vsq : Byte) : Option Instr :=
  match ti.toNat with
  | 1 => some (.mSpNa1 (vsqSq vsq) (vsqNum vsq))
  | 2 => some (.mSpTa1 vsq)
  | 3 => some (.mDpNa1 (vsqSq vsq) (vsqNum vsq))
  | 4 => some (.mDpTa1 vsq)
  | 5 => some (.mStNa1 (vsqSq vsq) (vsqNum vsq))
  | 6 => some (.mStTa1 vsq)
  | 7 => some (.mBoNa1 (vsqSq vsq) (vsqNum vsq))
  | 8 => some (.mBoTa1 vsq)
  | 9 => some (.mMeNa1 (vsqSq vsq) (vsqNum vsq))
  | 10 => some (.mMeTa1 vsq)
  | 11 => some (.mMeNb1 (vsqSq vsq) (vsqNum vsq))
  | 12 => some (.mMeTb1 vsq)
  | 13 => some (.mMeNc1 (vsqSq vsq) (vsqNum vsq))
  | 14 => some (.mMeTc1 vsq)
  | 15 => some (.mItNa1 (vsqSq vsq) (vsqNum vsq))
  | 16 => some (.mItTa1 vsq)
  | 17 => some (.mEpTa1 vsq)
  | 18 => some (.mEpTb1 vsq)
  | 19 => some (.mEpTc1 vsq)
  | 20 => some (.mPsNa1 (vsqSq vsq) (vsqNum vsq))
  | 21 => some (.mMeNd1 (vsqSq vsq) (vsqNum vsq))
  | 30 => some (.mSpTb1 vsq)
  | 31 => some (.mDpTb1 vsq)
  | 32 => some (.mStTb1 vsq)
  | 33 => some (.mBoTb1 vsq)
  | 34 => some (.mMeTd1 vsq)
  | 35 => some (.mMeTe1 vsq)
  | 36 => some (.mMeTf1 vsq)
  | 37 => some (.mItTb1 vsq)
  | 38 => some (.mEpTd1 vsq)
  | 39 => some (.mEpTe1 vsq)
  | 40 => some (.mEpTf1 vsq)
  | 45 => some (.cScNa1 vsq)
  | 46 => some (.cDcNa1 vsq)
  | 47 => some (.cRcNa1 vsq)
  | 48 => some (.cSeNa1 vsq)
  | 49 => some (.cSeNb1 vsq)
  | 50 => some (.cSeNc1 vsq)
  | 51 => some (.cBoNa1 vsq)
  | 70 => some (.mEiNa1 vsq)
  | _ => none

/-- ASDU level: the type identifier crossed with the SQ bit, against the registry's rows (R93, R94, R189). NUM is never
part of a match (R94). -/
def decodeTypeWord (rs : List Row) (ti vsq : Byte) : Except Reject Instr :=
  match findRow ti rs with
  | none => .error .unknownTypeId
  | some row =>
    if vsqSq vsq = 1 ∧ row.seqLegal = false then .error .illegalSequenceMode
    else
      match typeInstr ti vsq with
      | some i => .ok i
      | none => .error .unknownTypeId

/-- ASDU level, on the ASDU's bytes (R85, R93). -/
def decodeAsduWord (rs : List Row) : List Byte → Except Reject Instr
  | ti :: vsq :: _ => decodeTypeWord rs ti vsq
  | _ => .error .truncatedInput

/-- Command level: CMD.OP (R24, R270). Every value is a command. -/
def decodeCmd (op : BitVec 2) : Instr :=
  match op.toNat with
  | 0 => .decFrame
  | 1 => .encFrame
  | 2 => .decAsdu
  | _ => .encAsdu

/-- Command level, on the byte whose bits 1:0 are CMD.OP (R94: mask 0x3). -/
def decodeCmdByte : List Byte → Except Reject Instr
  | [] => .error .truncatedInput
  | b :: _ => .ok (decodeCmd (b.extractLsb' 0 2))

/-- The decoder, total on any bytes at each of the three levels (R80), under the rows of a registry. -/
def decode (rs : List Row) : Level → List Byte → Except Reject Instr
  | .link, bs => decodeLink bs
  | .asdu, bs => decodeAsduWord rs bs
  | .cmd, bs => decodeCmdByte bs

/-! ## The encoder -/

/-- The level at which an instruction is selected (R80). -/
def Instr.level : Instr → Level
  | .ack | .nack | .fixedFrame | .variableFrame => .link
  | .decFrame | .encFrame | .decAsdu | .encAsdu => .cmd
  | .mSpNa1 _ _ | .mSpTa1 _ | .mDpNa1 _ _ | .mDpTa1 _ | .mStNa1 _ _ | .mStTa1 _ | .mBoNa1 _ _ | .mBoTa1 _
  | .mMeNa1 _ _ | .mMeTa1 _ | .mMeNb1 _ _ | .mMeTb1 _ | .mMeNc1 _ _ | .mMeTc1 _ | .mItNa1 _ _ | .mItTa1 _
  | .mEpTa1 _ | .mEpTb1 _ | .mEpTc1 _ | .mPsNa1 _ _ | .mMeNd1 _ _ | .mSpTb1 _ | .mDpTb1 _ | .mStTb1 _
  | .mBoTb1 _ | .mMeTd1 _ | .mMeTe1 _ | .mMeTf1 _ | .mItTb1 _ | .mEpTd1 _ | .mEpTe1 _ | .mEpTf1 _
  | .cScNa1 _ | .cDcNa1 _ | .cRcNa1 _ | .cSeNa1 _ | .cSeNb1 _ | .cSeNc1 _ | .cBoNa1 _ | .mEiNa1 _ => .asdu

/-- The bytes of an instruction's word (R92, R93, R94, R270): the start byte; the type identifier and the VSQ
byte; the byte whose bits 1:0 are CMD.OP and whose other bits are 0. -/
def encode : Instr → List Byte
  | .ack => [0xE5]
  | .nack => [0xA2]
  | .fixedFrame => [0x10]
  | .variableFrame => [0x68]
  | .mSpNa1 sq n => [1, mkVsq sq n]
  | .mSpTa1 vsq => [2, vsq]
  | .mDpNa1 sq n => [3, mkVsq sq n]
  | .mDpTa1 vsq => [4, vsq]
  | .mStNa1 sq n => [5, mkVsq sq n]
  | .mStTa1 vsq => [6, vsq]
  | .mBoNa1 sq n => [7, mkVsq sq n]
  | .mBoTa1 vsq => [8, vsq]
  | .mMeNa1 sq n => [9, mkVsq sq n]
  | .mMeTa1 vsq => [10, vsq]
  | .mMeNb1 sq n => [11, mkVsq sq n]
  | .mMeTb1 vsq => [12, vsq]
  | .mMeNc1 sq n => [13, mkVsq sq n]
  | .mMeTc1 vsq => [14, vsq]
  | .mItNa1 sq n => [15, mkVsq sq n]
  | .mItTa1 vsq => [16, vsq]
  | .mEpTa1 vsq => [17, vsq]
  | .mEpTb1 vsq => [18, vsq]
  | .mEpTc1 vsq => [19, vsq]
  | .mPsNa1 sq n => [20, mkVsq sq n]
  | .mMeNd1 sq n => [21, mkVsq sq n]
  | .mSpTb1 vsq => [30, vsq]
  | .mDpTb1 vsq => [31, vsq]
  | .mStTb1 vsq => [32, vsq]
  | .mBoTb1 vsq => [33, vsq]
  | .mMeTd1 vsq => [34, vsq]
  | .mMeTe1 vsq => [35, vsq]
  | .mMeTf1 vsq => [36, vsq]
  | .mItTb1 vsq => [37, vsq]
  | .mEpTd1 vsq => [38, vsq]
  | .mEpTe1 vsq => [39, vsq]
  | .mEpTf1 vsq => [40, vsq]
  | .cScNa1 vsq => [45, vsq]
  | .cDcNa1 vsq => [46, vsq]
  | .cRcNa1 vsq => [47, vsq]
  | .cSeNa1 vsq => [48, vsq]
  | .cSeNb1 vsq => [49, vsq]
  | .cSeNc1 vsq => [50, vsq]
  | .cBoNa1 vsq => [51, vsq]
  | .mEiNa1 vsq => [70, vsq]
  | .decFrame => [0]
  | .encFrame => [1]
  | .decAsdu => [2]
  | .encAsdu => [3]

/-! ## A word of spec/opcode_table.json -/

/-- The n bytes of a number, least significant first: a table word's bits in the order the table numbers them
(R94: hw = TI + 256 * VSQ, the first byte in bits 7:0). -/
def wordBytes : Nat → Nat → List Byte
  | 0, _ => []
  | n + 1, w => BitVec.ofNat 8 w :: wordBytes n (w / 256)

/-- The level of a table row's word (R94): a word of more than 8 bits is an ASDU-level halfword; an 8-bit word is
a link-level start byte if it is one of the four, else a CMD.OP if it is 0 to 3 or 6 (the table gives DEC_ASDU's row a
free bit 2), else the low byte of an ASDU-level halfword whose VSQ bits are 0 (assumption log 6). -/
def tableLevel (nbits w : Nat) : Level :=
  if 8 < nbits then .asdu
  else
    match w % 256 with
    | 0xE5 | 0xA2 | 0x10 | 0x68 => .link
    | 0 | 1 | 2 | 3 | 6 => .cmd
    | _ => .asdu

/-- The bytes a table word lays down: two at the ASDU level (TI, VSQ), one at the others. -/
def tableBytes (nbits w : Nat) : List Byte :=
  match tableLevel nbits w with
  | .asdu => wordBytes 2 w
  | .link | .cmd => wordBytes 1 w

/-- The instruction the decoder reads from a table word under the spec's own registry; none where it rejects the
word. -/
def decodeTableWord (nbits w : Nat) : Option Instr :=
  match decode specParams.registry (tableLevel nbits w) (tableBytes nbits w) with
  | .ok i => some i
  | .error _ => none

end Sys2Proof
end

