-- ==== Sys2Proof/Machine/Operands.lean ====
section
/-! DEFINITION. Operand forms: how a field is assembled from bytes (spec/30_encoding.md R91), the byte-order
functions (spec/00_scope.md R9), the header fields (spec/40_link_frames.md R115, spec/43_asdu_dispatch.md R181), and
the two object layouts (R186 to R188). Every multi-byte field is little-endian (spec/20_memory.md R61) and may start
at any offset (R63). -/

namespace Sys2Proof.Machine

/-! ## Bytes and byte order -/

/-- The byte at an offset of a byte string; used only where the byte is known to be present (R64). -/
def byteAt (s : List Byte) (a : Nat) : Byte := s.getD a 0

/-- `s[a..b)` (R8). -/
def slice (s : List Byte) (a b : Nat) : List Byte := (s.drop a).take (b - a)

/-- The unsigned little-endian value of a byte string, of any length (R9, R61). -/
def leNat : List Byte → Nat
  | [] => 0
  | b :: bs => b.toNat + 256 * leNat bs

/-- The n bytes of a number, least significant first (R9 `put16`, `put32`). -/
def leBytes : Nat → Nat → List Byte
  | 0, _ => []
  | n + 1, v => BitVec.ofNat 8 v :: leBytes n (v / 256)

/-- `le16(s, a)` as an address (R9). -/
def le16 (s : List Byte) (a : Nat) : Addr := BitVec.ofNat 16 (leNat (slice s a (a + 2)))

/-- `put16(v)` (R9). -/
def put16 (v : Addr) : List Byte := leBytes 2 v.toNat

/-! ## Bit fields -/

/-- The w bits of v from bit lo up, as an unsigned integer: `b[hi:lo]` with hi = lo + w - 1 (R7, R91). -/
def getBits (v lo w : Nat) : Nat := v / 2 ^ lo % 2 ^ w

/-- v with the w bits from bit lo up replaced by x, every other bit kept (R31). -/
def setBits (v lo w x : Nat) : Nat := v % 2 ^ lo + x * 2 ^ lo + v / 2 ^ (lo + w) * 2 ^ (lo + w)

/-- `sint_N(v)`: the N-bit unsigned value v read as two's complement (R9). -/
def sint (n v : Nat) : Int := if v < 2 ^ (n - 1) then (v : Int) else (v : Int) - 2 ^ n

/-! ## The control byte (R115) -/

/-- `ctl(c)`. -/
def ctl (c : Byte) : Control :=
  { res := c.extractLsb' 7 1, prm := c.extractLsb' 6 1, fcb := c.extractLsb' 5 1, fcv := c.extractLsb' 4 1,
    fc := c.extractLsb' 0 4 }

/-- `ctlbyte(r)`: res, prm, fcb, fcv and fc from the most significant bit down. -/
def ctlbyte (r : Control) : Byte := r.res ++ r.prm ++ r.fcb ++ r.fcv ++ r.fc

/-! ## The cause-of-transmission byte (R87, R181); the VSQ byte's fields are `vsqSq`, `vsqNum`, `mkVsq` -/

/-- TEST, bit 7. -/
def cotTest (c : Byte) : Bit := c.extractLsb' 7 1

/-- NEG, bit 6. -/
def cotNeg (c : Byte) : Bit := c.extractLsb' 6 1

/-- COT, bits 5:0. -/
def cotCause (c : Byte) : BitVec 6 := c.extractLsb' 0 6

/-- The byte 128 * test + 64 * neg + cot. -/
def mkCotb (test neg : Bit) (cot : BitVec 6) : Byte := test ++ neg ++ cot

/-! ## The object lists -/

/-- `objs_size` with group size g (R99). -/
def objsSize (g : Nat) (sq : Bit) (num : BitVec 7) : Nat :=
  if sq = 0 then num.toNat * (2 + g) else 2 + num.toNat * g

/-- `asdu_size` with group size g (R99). -/
def asduSize (g : Nat) (sq : Bit) (num : BitVec 7) : Nat := 4 + objsSize g sq num

/-- The largest NUM of a group size inside a variable frame, whose payload is at most 253 bytes (R99, R220's last two
columns). -/
def maxNumInFrame (g : Nat) (sq : Bit) : Nat :=
  if sq = 0 then min 127 (249 / (2 + g)) else min 127 (247 / g)

/-- The loop of `dec_discrete`: n objects, each a 2-byte address and a group of g bytes (R186). -/
def decDiscrete (g : Nat) : Nat → List Byte → List (Addr × List Byte)
  | 0, _ => []
  | n + 1, s => (le16 s 0, slice s 2 (2 + g)) :: decDiscrete g n (s.drop (2 + g))

/-- The loop of `dec_sequence`: n groups of g bytes with nothing between them (R187). -/
def decGroups (g : Nat) : Nat → List Byte → List (List Byte)
  | 0, _ => []
  | n + 1, s => slice s 0 g :: decGroups g n (s.drop g)

/-- The object list at the start of s, the layout chosen by SQ alone (R184 step 9, R185). -/
def decObjs (g : Nat) (sq : Bit) (num : BitVec 7) (s : List Byte) : Objs :=
  if sq = 0 then .discrete (decDiscrete g num.toNat s)
  else .sequence (le16 s 0) (decGroups g num.toNat (s.drop 2))

/-- `ioa(i)`: (base + i) mod 65536 (R30, R188). -/
def ioa (base : Addr) (i : Nat) : Addr := base + BitVec.ofNat 16 i

/-- What a decode stores in ADDR[i] (R30, R273): object i's own address, or ioa(i). -/
def Objs.addr : Objs → Nat → Addr
  | .discrete l, i => (l.getD i (0, [])).1
  | .sequence base _, i => ioa base i

/-- The element group of object i. -/
def Objs.group : Objs → Nat → List Byte
  | .discrete l, i => (l.getD i (0, [])).2
  | .sequence _ gs, i => gs.getD i []

/-- EG[i]: the group's bytes from byte 0, every byte above the group 0 (R36, R273). -/
def padGroup (bs : List Byte) : Vector Byte Config.gmax := Vector.ofFn fun j => bs.getD j.val 0

/-- The bytes an encode sends for one slot with SQ = 0: `put16(ADDR[i]) ++ EG[i][0..g)` (R190). -/
def slotDiscreteBytes (g : Nat) (sl : Slot) : List Byte := put16 sl.addr ++ sl.eg.toList.take g

/-- The bytes an encode sends for one slot with SQ = 1: `EG[i][0..g)` (R190). -/
def slotGroupBytes (g : Nat) (sl : Slot) : List Byte := sl.eg.toList.take g

end Sys2Proof.Machine
end

