-- ==== Sys2Proof/Machine/State.lean ====
section
/-! DEFINITION. The state of the ASDU frame parser as plain data (spec/10_state.md R20 to R30, R44; the tuple of
spec/46_host_operations.md R279), the reasons a step can stop, and the state after reset. -/

namespace Sys2Proof.Machine

/-- Why a step stops with a fault. The spec names no fault of the block (spec/60_exceptions.md R305: "no bus error,
no access fault and no alignment fault"), so the one fault is the model's own, and no state that satisfies
`Safety.Inv` raises it (assumption log 5). -/
inductive Fault where
  /-- A decode in a state whose WLEN is above BUFSZ, so that it would read bytes of WIRE that do not exist (R21,
  R22). Raised by DEC_FRAME, DEC_ASDU and the link-level and ASDU-level instructions. Safe: R22 says that WLEN is
  never above BUFSZ, so the hardware is never in such a state. -/
  | wireOutOfRange
deriving DecidableEq, Repr

/-- Why an instruction has no meaning. -/
inductive Refusal where
  /-- The instruction is not modelled; raised by no arm of `exec`. Safe: a claim about it cannot be proved. -/
  | notModelled (mnemonic : String)
deriving DecidableEq, Repr

/-- WIRE as a list of (offset, byte) pairs, in the canonical form `Memory.wf` of `Machine/Ops.lean`: offsets
strictly rising and below BUFSZ, no byte equal to what an unlisted offset reads as (R21). -/
abbrev Memory := List Host.Cell

/-- CFG, 3 bits (R23). -/
structure Cfg where
  /-- Bits 1:0, CSMODE: 0 IGNORE, 1 FLAG, 2 FATAL; 3 is reserved and no write stores it (R23, U4). -/
  csmode : BitVec 2
  /-- Bit 2, CSGEN: 0 an encode copies REC.CS, 1 it writes the computed checksum (R23). -/
  csgen : Bit
deriving DecidableEq, Repr

/-- STATUS, 19 bits (R25). -/
structure Status where
  /-- Bits 1:0, ST: 0 IDLE, 1 OK, 2 ERR; 3 never occurs (R25, U12). -/
  st : BitVec 2
  /-- Bits 5:2, ERR: the error code of the last operation, 0 when ST is not ERR (R25, R290). -/
  err : BitVec 4
  /-- Bit 6, CSERR: the flagged checksum condition (R25, R304). -/
  cserr : Bit
  /-- Bits 18:7, ERRPOS: the offset in WIRE at which the error was found (R25, R291). -/
  errpos : BitVec 12
deriving DecidableEq, Repr

/-- The scalar registers of REC (R26, R27, R28). -/
structure Regs where
  /-- KIND: 0 NONE, 1 SINGLE, 2 FIXED, 3 VARIABLE, 4 ASDU, 5 to 7 reserved (R26). -/
  kind : BitVec 3
  /-- SC: 0 positive, 1 negative acknowledge (R27). -/
  sc : Bit
  /-- CTRL: the control byte (R27). -/
  ctrl : Byte
  /-- LADDR: the link address (R27). -/
  laddr : Byte
  /-- LEN: the length byte L of a variable frame as received (R27). -/
  len : Byte
  /-- CS: the checksum byte as it stood on the wire (R27). -/
  cs : Byte
  /-- HASASDU: 1 when a variable frame carries an ASDU (R27). -/
  hasasdu : Bit
  /-- TI: the type identifier (R28). -/
  ti : Byte
  /-- VSQ: SQ in bit 7, NUM in bits 6:0 (R28). -/
  vsq : Byte
  /-- COTB: TEST in bit 7, NEG in bit 6, COT in bits 5:0 (R28). -/
  cotb : Byte
  /-- CA: the common address (R28). -/
  ca : Byte
deriving DecidableEq, Repr

/-- The state (R20, R279). The parse cursor exists only inside an operation (R42). -/
structure State where
  /-- The OPEN parameters the block was built with (R6): its "read-only state", the registry (R32), with the layouts and
  the size of WIRE. No step changes them, RESET included. -/
  par : Params
  /-- WIRE, BUFSZ bytes (R21). -/
  wire : Memory
  /-- WLEN, 12 bits: the number of valid bytes in WIRE (R22). -/
  wlen : BitVec 12
  /-- CFG (R23). -/
  cfg : Cfg
  /-- CMD.OP, 2 bits: the last value written (R24). -/
  cmd : BitVec 2
  /-- STATUS (R25). -/
  status : Status
  /-- The scalar registers of REC (R26 to R28). -/
  regs : Regs
  /-- The object store, 127 slots (R29). -/
  slots : Vector Slot Config.nslot
  /-- The MODEL's own field, not the spec's: the host steps still to come, in order. The spec's step relation takes
  the host's step as an argument (R279: "the 'next instruction' is whatever the host does next"); a step of one
  argument reads it here (assumption log 2). -/
  pending : List HostAction
deriving DecidableEq, Repr

/-- Every scalar register of REC at 0 (R36, R44, R300). -/
def Regs.zero : Regs :=
  { kind := 0, sc := 0, ctrl := 0, laddr := 0, len := 0, cs := 0, hasasdu := 0, ti := 0, vsq := 0, cotb := 0,
    ca := 0 }

/-- A slot whose address and bytes are 0. -/
def slotZero : Slot := { addr := 0, eg := Vector.replicate Config.gmax 0 }

/-- The state after reset (R44), of a block built with the parameter values the spec gives for this hardware (R6;
assumption log 1). WIRE and the object store are "unspecified: any values"; the model names the draw
of all zeros here (DESIGN CHOICE, unsafe; assumption log 4), and the RESET step takes any draw. -/
def State.reset : State :=
  { par := specParams
    wire := []
    wlen := 0
    cfg := { csmode := 1, csgen := 0 }
    cmd := 0
    status := { st := 0, err := 0, cserr := 0, errpos := 0 }
    regs := Regs.zero
    slots := Vector.replicate Config.nslot slotZero
    pending := [] }

end Sys2Proof.Machine
end

