-- ==== Sys2Proof/Machine/Ops.lean ====
section
/-! DEFINITION. The named operations over WIRE, REC, the object store and STATUS: reading and writing WIRE in its one
canonical form (spec/20_memory.md R64, R65), loading a record (spec/46_host_operations.md R271, R273), taking an error
(spec/60_exceptions.md R300), and the two frames every operation runs in: decode and encode. There is no return from
an error: the next START overwrites STATUS (R303). -/

namespace Sys2Proof.Machine

/-! ## WIRE -/

/-- What an offset of WIRE that nothing has written reads as. DESIGN CHOICE, unsafe (assumption log 4): R44 leaves
WIRE unspecified after reset. -/
def wireDefault : Byte := 0

/-- The byte at an offset of WIRE. -/
def Memory.read : Memory → Nat → Byte
  | [], _ => wireDefault
  | (a, b) :: rest, k => if a = k then b else Memory.read rest k

/-- Write one byte, keeping the offsets rising and listing no byte equal to `wireDefault`. -/
def Memory.insert : Memory → Nat → Byte → Memory
  | [], k, b => if b = wireDefault then [] else [(k, b)]
  | (a, x) :: rest, k, b =>
    if k < a then (if b = wireDefault then (a, x) :: rest else (k, b) :: (a, x) :: rest)
    else if k = a then (if b = wireDefault then rest else (k, b) :: rest)
    else (a, x) :: Memory.insert rest k b

/-- Write one byte of a WIRE of n bytes; an offset outside the buffer holds no byte to write (R21). -/
def Memory.write (n : Nat) (m : Memory) (k : Nat) (b : Byte) : Memory :=
  if k < n then Memory.insert m k b else m

/-- `MemWrite(a, n, s)` in a WIRE of n bytes: the bytes of s from offset a up (R65). -/
def Memory.writeBytes (n : Nat) : Memory → Nat → List Byte → Memory
  | m, _, [] => m
  | m, a, b :: bs => Memory.writeBytes n (Memory.write n m a b) (a + 1) bs

/-- `MemRead(a, n)`: the n bytes from offset a up (R64). -/
def Memory.readBytes (m : Memory) (a : Nat) : Nat → List Byte
  | 0 => []
  | n + 1 => Memory.read m a :: Memory.readBytes m (a + 1) n

/-- The canonical form of a WIRE of n bytes: offsets strictly rising and below n, no byte equal to what an unlisted
offset reads as. -/
def Memory.wf (n : Nat) : Memory → Bool
  | [] => true
  | (a, b) :: rest => decide (a < n) && decide (b ≠ wireDefault) && rest.all (fun c => decide (a < c.1)) &&
      Memory.wf n rest

/-- WIRE[0..WLEN), the bytes a decode is given (R21, R22); none when WLEN is above BUFSZ. -/
def readWire (s : State) : Option (List Byte) :=
  if s.wlen.toNat ≤ s.par.bufsz then some (Memory.readBytes s.wire 0 s.wlen.toNat) else none

/-! ## Updates of one part of the state -/

/-- CMD.OP keeps the value written (R24, R270). -/
def State.setCmd (s : State) (op : BitVec 2) : State := { s with cmd := op }

/-- The engine writes all four fields of STATUS, every time (R25, R278). -/
def State.setStatus (s : State) (x : Status) : State := { s with status := x }

/-- The scalar registers of REC. -/
def State.setRegs (s : State) (r : Regs) : State := { s with regs := r }

/-- The object store. -/
def State.setSlots (s : State) (v : Vector Slot Config.nslot) : State := { s with slots := v }

/-- WIRE. -/
def State.setWire (s : State) (m : Memory) : State := { s with wire := m }

/-- WLEN. -/
def State.setWlen (s : State) (n : Nat) : State := { s with wlen := BitVec.ofNat 12 n }

/-- CFG. -/
def State.setCfg (s : State) (c : Cfg) : State := { s with cfg := c }

/-- The host steps still to come. -/
def State.setPending (s : State) (l : List HostAction) : State := { s with pending := l }

/-! ## Errors (R290, R300) -/

/-- `code(E)`, 1 to 8 (R290). -/
def ErrKind.code : ErrKind → BitVec 4
  | .unknownFrameStart => 1
  | .lengthMismatch => 2
  | .truncatedInput => 3
  | .unterminatedFrame => 4
  | .unknownTypeId => 5
  | .illegalSequenceMode => 6
  | .vsqNumberZero => 7
  | .checksumMismatch => 8

/-- The class of an error kind (R290): a protocol error or a structural one. Both end the operation the same way. -/
def ErrKind.isProtocol : ErrKind → Bool
  | .unknownTypeId | .illegalSequenceMode | .vsqNumberZero => true
  | .unknownFrameStart | .lengthMismatch | .truncatedInput | .unterminatedFrame | .checksumMismatch => false

/-- STATUS after an operation that succeeded (R278). -/
def statusOk (cserr : Bit) : Status := { st := 1, err := 0, cserr := cserr, errpos := 0 }

/-- STATUS after an operation that failed (R278, R300): CSERR is 1 exactly with ChecksumMismatch. -/
def statusErr (e : ErrKind) (p : Nat) : Status :=
  { st := 2, err := e.code, cserr := if e = .checksumMismatch then 1 else 0, errpos := BitVec.ofNat 12 p }

/-- Taking an error of a decode: `fail_decode(E, p)` (R300). -/
def failDecode (s : State) (e : CodecErr) : State :=
  (s.setRegs Regs.zero).setStatus (statusErr e.kind e.pos)

/-- Taking an error of an encode: `fail_encode(E)` (R300). -/
def failEncode (s : State) (e : ErrKind) : State :=
  (s.setWlen 0).setStatus (statusErr e 0)

/-! ## Loading a decoded record (R36, R271, R273) -/

/-- The object store after `load_asdu(A)`: slots 0 to NUM - 1 written, the others kept (R36, R273). -/
def storeObjs (slots : Vector Slot Config.nslot) (a : Asdu) : Vector Slot Config.nslot :=
  Vector.ofFn fun i =>
    if i.val < a.num.toNat then { addr := a.objs.addr i.val, eg := padGroup (a.objs.group i.val) } else slots[i]

/-- The ASDU-header registers of `load_asdu(A)` (R273); the others as in r. -/
def asduRegs (r : Regs) (a : Asdu) : Regs :=
  { r with ti := a.ti, vsq := mkVsq a.sq a.num, cotb := mkCotb a.test a.neg a.cot, ca := a.ca }

/-- DEC_ASDU's success (R273). -/
def loadBareAsdu (s : State) (a : Asdu) : State :=
  ((s.setRegs (asduRegs { Regs.zero with kind := 4 } a)).setSlots (storeObjs s.slots a)).setStatus (statusOk 0)

/-- The scalar registers `load(F)` writes, LEN included (R271). -/
def frameRegs (f : Frame) (len : Byte) : Regs :=
  match f with
  | .noFrame => Regs.zero
  | .singleChar neg => { Regs.zero with kind := 1, sc := neg, len := len }
  | .fixed c a cs => { Regs.zero with kind := 2, ctrl := ctlbyte c, laddr := a, cs := cs, len := len }
  | .variableFrame c a cs none =>
    { Regs.zero with kind := 3, ctrl := ctlbyte c, laddr := a, cs := cs, len := len }
  | .variableFrame c a cs (some d) =>
    asduRegs { Regs.zero with kind := 3, ctrl := ctlbyte c, laddr := a, cs := cs, len := len, hasasdu := 1 } d

/-- The object store `load(F)` leaves: written only when F carries an ASDU (R271). -/
def frameSlots (slots : Vector Slot Config.nslot) : Frame → Vector Slot Config.nslot
  | .variableFrame _ _ _ (some a) => storeObjs slots a
  | .variableFrame _ _ _ none => slots
  | .noFrame | .singleChar _ | .fixed _ _ _ => slots

/-- DEC_FRAME's success (R271). -/
def loadFrame (s : State) (r : FrameResult) : State :=
  ((s.setRegs (frameRegs r.frame r.len)).setSlots (frameSlots s.slots r.frame)).setStatus (statusOk r.cserr)

/-! ## The two frames of an operation -/

/-- A link-level decode (R271): f runs on CSMODE and WIRE[0..WLEN); success loads the frame, an error is taken. -/
def decodeFrameOp (f : BitVec 2 → List Byte → Except CodecErr FrameResult) (s : State) :
    Host.Outcome State Fault Refusal :=
  match readWire s with
  | none => .fault .wireOutOfRange
  | some w =>
    match f s.cfg.csmode w with
    | .ok r => .next (loadFrame s r)
    | .error e => .next (failDecode s e)

/-- An ASDU-level decode (R273): f runs on WIRE[0..WLEN); success loads the ASDU, an error is taken. -/
def decodeAsduOp (f : List Byte → Except CodecErr Asdu) (s : State) : Host.Outcome State Fault Refusal :=
  match readWire s with
  | none => .fault .wireOutOfRange
  | some w =>
    match f w with
    | .ok a => .next (loadBareAsdu s a)
    | .error e => .next (failDecode s e)

/-- An encode's success: `MemWrite(0, len(B), B); WLEN <- len(B)` (R272, R274). -/
def storeWire (s : State) (b : List Byte) (cserr : Bit) : State :=
  ((s.setWire (Memory.writeBytes s.par.bufsz s.wire 0 b)).setWlen b.length).setStatus (statusOk cserr)

/-- An encode (R272, R274): the bytes go to WIRE, or the error is taken. -/
def encodeOp (r : Except CodecErr (List Byte × Bit)) (s : State) : State :=
  match r with
  | .ok (b, cserr) => storeWire s b cserr
  | .error e => failEncode s e.kind

end Sys2Proof.Machine
end

