-- ==== Sys2Proof/Machine/Asdu.lean ====
section
/-! DEFINITION. The ASDU codec's shared operations (spec/43_asdu_dispatch.md): the decode of one type identifier
and `enc_asdu`. The 40 types are one-line definitions over `decTyped` in `Monitor.lean`,
`MonitorTagged.lean` and `Control.lean`. -/

namespace Sys2Proof.Machine

/-- The decode of an ASDU whose instruction word has been read as a type identifier, SQ and NUM: `dec_asdu` from its
header on (R184). `w` is the region W[a..a+N) and nothing else (R117); positions are offsets in WIRE. The type's row and
the sizes of its group are the parameters'. -/
def decTyped (p : Params) (ti : Byte) (sq : Bit) (num : BitVec 7) (a : Nat) (w : List Byte) : Except CodecErr Asdu :=
  if w.length < 4 then .error ⟨.truncatedInput, a + w.length⟩
  else if num = 0 then .error ⟨.vsqNumberZero, a + 1⟩
  else
    match p.lookup ti with
    | none => .error ⟨.unknownTypeId, a⟩
    | some row =>
      if sq = 1 ∧ row.seqLegal = false then .error ⟨.illegalSequenceMode, a + 1⟩
      else if w.length - 4 < objsSize (p.gsize row) sq num then .error ⟨.truncatedInput, a + w.length⟩
      else if objsSize (p.gsize row) sq num < w.length - 4 then
        .error ⟨.lengthMismatch, a + 4 + objsSize (p.gsize row) sq num⟩
      else
        .ok { ti := ti, sq := sq, num := num, test := cotTest (byteAt w 2), neg := cotNeg (byteAt w 2),
              cot := cotCause (byteAt w 2), ca := byteAt w 3, objs := decObjs (p.gsize row) sq num (w.drop 4) }

/-- The object list of `enc_asdu` (R190 step 6). With SQ = 1 only ADDR[0] is read (R191). -/
def encObjs (g : Nat) (sq : Bit) (num : BitVec 7) (slots : Vector Slot Config.nslot) : List Byte :=
  if sq = 0 then (slots.toList.take num.toNat).flatMap (slotDiscreteBytes g)
  else put16 slots[0].addr ++ (slots.toList.take num.toNat).flatMap (slotGroupBytes g)

/-- `enc_asdu(R)` (R190). -/
def encAsdu (p : Params) (r : Regs) (slots : Vector Slot Config.nslot) : Except CodecErr (List Byte) :=
  if vsqNum r.vsq = 0 then .error ⟨.vsqNumberZero, 0⟩
  else
    match p.lookup r.ti with
    | none => .error ⟨.unknownTypeId, 0⟩
    | some row =>
      if vsqSq r.vsq = 1 ∧ row.seqLegal = false then .error ⟨.illegalSequenceMode, 0⟩
      else .ok ([r.ti, r.vsq, r.cotb, r.ca] ++ encObjs (p.gsize row) (vsqSq r.vsq) (vsqNum r.vsq) slots)

end Sys2Proof.Machine
end

