-- ==== Sys2Proof/Machine/Control.lean ====
section
/-! DEFINITION. The command and set-point types 45 to 51 and end of initialization, 70 (spec/45_type_registry.md
R253 to R260). -/

namespace Sys2Proof.Machine

/-- The decode of a C_SC_NA_1 ASDU at offset a of WIRE; in R220 its group is SCO and SQ is 0 only (R253). -/
def decCScNa1 (p : Params) (vsq : Byte) (a : Nat) (w : List Byte) : Except CodecErr Asdu :=
  decTyped p 45 (vsqSq vsq) (vsqNum vsq) a w

/-- C_SC_NA_1 as a bare ASDU (R253, R273). -/
def execCScNa1 (vsq : Byte) (s : State) : Host.Outcome State Fault Refusal :=
  decodeAsduOp (decCScNa1 s.par vsq 0) s

/-- The decode of a C_DC_NA_1 ASDU at offset a of WIRE; in R220 its group is DCO and SQ is 0 only (R254). -/
def decCDcNa1 (p : Params) (vsq : Byte) (a : Nat) (w : List Byte) : Except CodecErr Asdu :=
  decTyped p 46 (vsqSq vsq) (vsqNum vsq) a w

/-- C_DC_NA_1 as a bare ASDU (R254, R273). -/
def execCDcNa1 (vsq : Byte) (s : State) : Host.Outcome State Fault Refusal :=
  decodeAsduOp (decCDcNa1 s.par vsq 0) s

/-- The decode of a C_RC_NA_1 ASDU at offset a of WIRE; in R220 its group is RCO and SQ is 0 only (R255). -/
def decCRcNa1 (p : Params) (vsq : Byte) (a : Nat) (w : List Byte) : Except CodecErr Asdu :=
  decTyped p 47 (vsqSq vsq) (vsqNum vsq) a w

/-- C_RC_NA_1 as a bare ASDU (R255, R273). -/
def execCRcNa1 (vsq : Byte) (s : State) : Host.Outcome State Fault Refusal :=
  decodeAsduOp (decCRcNa1 s.par vsq 0) s

/-- The decode of a C_SE_NA_1 ASDU at offset a of WIRE; in R220 its group is NVA QOS and SQ is 0 only (R256). -/
def decCSeNa1 (p : Params) (vsq : Byte) (a : Nat) (w : List Byte) : Except CodecErr Asdu :=
  decTyped p 48 (vsqSq vsq) (vsqNum vsq) a w

/-- C_SE_NA_1 as a bare ASDU (R256, R273). -/
def execCSeNa1 (vsq : Byte) (s : State) : Host.Outcome State Fault Refusal :=
  decodeAsduOp (decCSeNa1 s.par vsq 0) s

/-- The decode of a C_SE_NB_1 ASDU at offset a of WIRE; in R220 its group is SVA QOS and SQ is 0 only (R257). -/
def decCSeNb1 (p : Params) (vsq : Byte) (a : Nat) (w : List Byte) : Except CodecErr Asdu :=
  decTyped p 49 (vsqSq vsq) (vsqNum vsq) a w

/-- C_SE_NB_1 as a bare ASDU (R257, R273). -/
def execCSeNb1 (vsq : Byte) (s : State) : Host.Outcome State Fault Refusal :=
  decodeAsduOp (decCSeNb1 s.par vsq 0) s

/-- The decode of a C_SE_NC_1 ASDU at offset a of WIRE; in R220 its group is R32 QOS and SQ is 0 only (R258). -/
def decCSeNc1 (p : Params) (vsq : Byte) (a : Nat) (w : List Byte) : Except CodecErr Asdu :=
  decTyped p 50 (vsqSq vsq) (vsqNum vsq) a w

/-- C_SE_NC_1 as a bare ASDU (R258, R273). -/
def execCSeNc1 (vsq : Byte) (s : State) : Host.Outcome State Fault Refusal :=
  decodeAsduOp (decCSeNc1 s.par vsq 0) s

/-- The decode of a C_BO_NA_1 ASDU at offset a of WIRE; in R220 its group is BSI and SQ is 0 only (R259). -/
def decCBoNa1 (p : Params) (vsq : Byte) (a : Nat) (w : List Byte) : Except CodecErr Asdu :=
  decTyped p 51 (vsqSq vsq) (vsqNum vsq) a w

/-- C_BO_NA_1 as a bare ASDU (R259, R273). -/
def execCBoNa1 (vsq : Byte) (s : State) : Host.Outcome State Fault Refusal :=
  decodeAsduOp (decCBoNa1 s.par vsq 0) s

/-- The decode of a M_EI_NA_1 ASDU at offset a of WIRE; in R220 its group is COI and SQ is 0 only (R260). -/
def decMEiNa1 (p : Params) (vsq : Byte) (a : Nat) (w : List Byte) : Except CodecErr Asdu :=
  decTyped p 70 (vsqSq vsq) (vsqNum vsq) a w

/-- M_EI_NA_1 as a bare ASDU (R260, R273). -/
def execMEiNa1 (vsq : Byte) (s : State) : Host.Outcome State Fault Refusal :=
  decodeAsduOp (decMEiNa1 s.par vsq 0) s

end Sys2Proof.Machine
end

