-- ==== Sys2Proof/Machine/Monitor.lean ====
section
/-! DEFINITION. The monitor-direction types 1 to 21 (spec/45_type_registry.md R221 to R241): each is its type
identifier run through the generic engine, which reads its row and the sizes of its group from the parameters. -/

namespace Sys2Proof.Machine

/-- The decode of a M_SP_NA_1 ASDU at offset a of WIRE; in R220 its group is SIQ and SQ is 0 or 1 (R221). -/
def decMSpNa1 (p : Params) (sq : Bit) (num : BitVec 7) (a : Nat) (w : List Byte) : Except CodecErr Asdu :=
  decTyped p 1 sq num a w

/-- M_SP_NA_1 as a bare ASDU (R221, R273). -/
def execMSpNa1 (sq : Bit) (num : BitVec 7) (s : State) : Host.Outcome State Fault Refusal :=
  decodeAsduOp (decMSpNa1 s.par sq num 0) s

/-- The decode of a M_SP_TA_1 ASDU at offset a of WIRE; in R220 its group is SIQ CP24 and SQ is 0 only (R222). -/
def decMSpTa1 (p : Params) (vsq : Byte) (a : Nat) (w : List Byte) : Except CodecErr Asdu :=
  decTyped p 2 (vsqSq vsq) (vsqNum vsq) a w

/-- M_SP_TA_1 as a bare ASDU (R222, R273). -/
def execMSpTa1 (vsq : Byte) (s : State) : Host.Outcome State Fault Refusal :=
  decodeAsduOp (decMSpTa1 s.par vsq 0) s

/-- The decode of a M_DP_NA_1 ASDU at offset a of WIRE; in R220 its group is DIQ and SQ is 0 or 1 (R223). -/
def decMDpNa1 (p : Params) (sq : Bit) (num : BitVec 7) (a : Nat) (w : List Byte) : Except CodecErr Asdu :=
  decTyped p 3 sq num a w

/-- M_DP_NA_1 as a bare ASDU (R223, R273). -/
def execMDpNa1 (sq : Bit) (num : BitVec 7) (s : State) : Host.Outcome State Fault Refusal :=
  decodeAsduOp (decMDpNa1 s.par sq num 0) s

/-- The decode of a M_DP_TA_1 ASDU at offset a of WIRE; in R220 its group is DIQ CP24 and SQ is 0 only (R224). -/
def decMDpTa1 (p : Params) (vsq : Byte) (a : Nat) (w : List Byte) : Except CodecErr Asdu :=
  decTyped p 4 (vsqSq vsq) (vsqNum vsq) a w

/-- M_DP_TA_1 as a bare ASDU (R224, R273). -/
def execMDpTa1 (vsq : Byte) (s : State) : Host.Outcome State Fault Refusal :=
  decodeAsduOp (decMDpTa1 s.par vsq 0) s

/-- The decode of a M_ST_NA_1 ASDU at offset a of WIRE; in R220 its group is VTI QDS and SQ is 0 or 1 (R225). -/
def decMStNa1 (p : Params) (sq : Bit) (num : BitVec 7) (a : Nat) (w : List Byte) : Except CodecErr Asdu :=
  decTyped p 5 sq num a w

/-- M_ST_NA_1 as a bare ASDU (R225, R273). -/
def execMStNa1 (sq : Bit) (num : BitVec 7) (s : State) : Host.Outcome State Fault Refusal :=
  decodeAsduOp (decMStNa1 s.par sq num 0) s

/-- The decode of a M_ST_TA_1 ASDU at offset a of WIRE; in R220 its group is VTI QDS CP24 and SQ is 0 only (R226). -/
def decMStTa1 (p : Params) (vsq : Byte) (a : Nat) (w : List Byte) : Except CodecErr Asdu :=
  decTyped p 6 (vsqSq vsq) (vsqNum vsq) a w

/-- M_ST_TA_1 as a bare ASDU (R226, R273). -/
def execMStTa1 (vsq : Byte) (s : State) : Host.Outcome State Fault Refusal :=
  decodeAsduOp (decMStTa1 s.par vsq 0) s

/-- The decode of a M_BO_NA_1 ASDU at offset a of WIRE; in R220 its group is BSI QDS and SQ is 0 or 1 (R227). -/
def decMBoNa1 (p : Params) (sq : Bit) (num : BitVec 7) (a : Nat) (w : List Byte) : Except CodecErr Asdu :=
  decTyped p 7 sq num a w

/-- M_BO_NA_1 as a bare ASDU (R227, R273). -/
def execMBoNa1 (sq : Bit) (num : BitVec 7) (s : State) : Host.Outcome State Fault Refusal :=
  decodeAsduOp (decMBoNa1 s.par sq num 0) s

/-- The decode of a M_BO_TA_1 ASDU at offset a of WIRE; in R220 its group is BSI QDS CP24 and SQ is 0 only (R228). -/
def decMBoTa1 (p : Params) (vsq : Byte) (a : Nat) (w : List Byte) : Except CodecErr Asdu :=
  decTyped p 8 (vsqSq vsq) (vsqNum vsq) a w

/-- M_BO_TA_1 as a bare ASDU (R228, R273). -/
def execMBoTa1 (vsq : Byte) (s : State) : Host.Outcome State Fault Refusal :=
  decodeAsduOp (decMBoTa1 s.par vsq 0) s

/-- The decode of a M_ME_NA_1 ASDU at offset a of WIRE; in R220 its group is NVA QDS and SQ is 0 or 1 (R229). -/
def decMMeNa1 (p : Params) (sq : Bit) (num : BitVec 7) (a : Nat) (w : List Byte) : Except CodecErr Asdu :=
  decTyped p 9 sq num a w

/-- M_ME_NA_1 as a bare ASDU (R229, R273). -/
def execMMeNa1 (sq : Bit) (num : BitVec 7) (s : State) : Host.Outcome State Fault Refusal :=
  decodeAsduOp (decMMeNa1 s.par sq num 0) s

/-- The decode of a M_ME_TA_1 ASDU at offset a of WIRE; in R220 its group is NVA QDS CP24 and SQ is 0 only (R230). -/
def decMMeTa1 (p : Params) (vsq : Byte) (a : Nat) (w : List Byte) : Except CodecErr Asdu :=
  decTyped p 10 (vsqSq vsq) (vsqNum vsq) a w

/-- M_ME_TA_1 as a bare ASDU (R230, R273). -/
def execMMeTa1 (vsq : Byte) (s : State) : Host.Outcome State Fault Refusal :=
  decodeAsduOp (decMMeTa1 s.par vsq 0) s

/-- The decode of a M_ME_NB_1 ASDU at offset a of WIRE; in R220 its group is SVA QDS and SQ is 0 or 1 (R231). -/
def decMMeNb1 (p : Params) (sq : Bit) (num : BitVec 7) (a : Nat) (w : List Byte) : Except CodecErr Asdu :=
  decTyped p 11 sq num a w

/-- M_ME_NB_1 as a bare ASDU (R231, R273). -/
def execMMeNb1 (sq : Bit) (num : BitVec 7) (s : State) : Host.Outcome State Fault Refusal :=
  decodeAsduOp (decMMeNb1 s.par sq num 0) s

/-- The decode of a M_ME_TB_1 ASDU at offset a of WIRE; in R220 its group is SVA QDS CP24 and SQ is 0 only (R232). -/
def decMMeTb1 (p : Params) (vsq : Byte) (a : Nat) (w : List Byte) : Except CodecErr Asdu :=
  decTyped p 12 (vsqSq vsq) (vsqNum vsq) a w

/-- M_ME_TB_1 as a bare ASDU (R232, R273). -/
def execMMeTb1 (vsq : Byte) (s : State) : Host.Outcome State Fault Refusal :=
  decodeAsduOp (decMMeTb1 s.par vsq 0) s

/-- The decode of a M_ME_NC_1 ASDU at offset a of WIRE; in R220 its group is R32 QDS and SQ is 0 or 1 (R233). -/
def decMMeNc1 (p : Params) (sq : Bit) (num : BitVec 7) (a : Nat) (w : List Byte) : Except CodecErr Asdu :=
  decTyped p 13 sq num a w

/-- M_ME_NC_1 as a bare ASDU (R233, R273). -/
def execMMeNc1 (sq : Bit) (num : BitVec 7) (s : State) : Host.Outcome State Fault Refusal :=
  decodeAsduOp (decMMeNc1 s.par sq num 0) s

/-- The decode of a M_ME_TC_1 ASDU at offset a of WIRE; in R220 its group is R32 QDS CP24 and SQ is 0 only (R234). -/
def decMMeTc1 (p : Params) (vsq : Byte) (a : Nat) (w : List Byte) : Except CodecErr Asdu :=
  decTyped p 14 (vsqSq vsq) (vsqNum vsq) a w

/-- M_ME_TC_1 as a bare ASDU (R234, R273). -/
def execMMeTc1 (vsq : Byte) (s : State) : Host.Outcome State Fault Refusal :=
  decodeAsduOp (decMMeTc1 s.par vsq 0) s

/-- The decode of a M_IT_NA_1 ASDU at offset a of WIRE; in R220 its group is BCR and SQ is 0 or 1 (R235). -/
def decMItNa1 (p : Params) (sq : Bit) (num : BitVec 7) (a : Nat) (w : List Byte) : Except CodecErr Asdu :=
  decTyped p 15 sq num a w

/-- M_IT_NA_1 as a bare ASDU (R235, R273). -/
def execMItNa1 (sq : Bit) (num : BitVec 7) (s : State) : Host.Outcome State Fault Refusal :=
  decodeAsduOp (decMItNa1 s.par sq num 0) s

/-- The decode of a M_IT_TA_1 ASDU at offset a of WIRE; in R220 its group is BCR CP24 and SQ is 0 only (R236). -/
def decMItTa1 (p : Params) (vsq : Byte) (a : Nat) (w : List Byte) : Except CodecErr Asdu :=
  decTyped p 16 (vsqSq vsq) (vsqNum vsq) a w

/-- M_IT_TA_1 as a bare ASDU (R236, R273). -/
def execMItTa1 (vsq : Byte) (s : State) : Host.Outcome State Fault Refusal :=
  decodeAsduOp (decMItTa1 s.par vsq 0) s

/-- The decode of a M_EP_TA_1 ASDU at offset a of WIRE; in R220 its group is SEP CP16 CP24 and SQ is 0 only (R237). -/
def decMEpTa1 (p : Params) (vsq : Byte) (a : Nat) (w : List Byte) : Except CodecErr Asdu :=
  decTyped p 17 (vsqSq vsq) (vsqNum vsq) a w

/-- M_EP_TA_1 as a bare ASDU (R237, R273). -/
def execMEpTa1 (vsq : Byte) (s : State) : Host.Outcome State Fault Refusal :=
  decodeAsduOp (decMEpTa1 s.par vsq 0) s

/-- The decode of a M_EP_TB_1 ASDU at offset a of WIRE; in R220 its group is SPE QDP CP16 CP24 and SQ is 0 only (R238).
-/
def decMEpTb1 (p : Params) (vsq : Byte) (a : Nat) (w : List Byte) : Except CodecErr Asdu :=
  decTyped p 18 (vsqSq vsq) (vsqNum vsq) a w

/-- M_EP_TB_1 as a bare ASDU (R238, R273). -/
def execMEpTb1 (vsq : Byte) (s : State) : Host.Outcome State Fault Refusal :=
  decodeAsduOp (decMEpTb1 s.par vsq 0) s

/-- The decode of a M_EP_TC_1 ASDU at offset a of WIRE; in R220 its group is OCI QDP CP16 CP24 and SQ is 0 only (R239).
-/
def decMEpTc1 (p : Params) (vsq : Byte) (a : Nat) (w : List Byte) : Except CodecErr Asdu :=
  decTyped p 19 (vsqSq vsq) (vsqNum vsq) a w

/-- M_EP_TC_1 as a bare ASDU (R239, R273). -/
def execMEpTc1 (vsq : Byte) (s : State) : Host.Outcome State Fault Refusal :=
  decodeAsduOp (decMEpTc1 s.par vsq 0) s

/-- The decode of a M_PS_NA_1 ASDU at offset a of WIRE; in R220 its group is SCD QDS and SQ is 0 or 1 (R240). -/
def decMPsNa1 (p : Params) (sq : Bit) (num : BitVec 7) (a : Nat) (w : List Byte) : Except CodecErr Asdu :=
  decTyped p 20 sq num a w

/-- M_PS_NA_1 as a bare ASDU (R240, R273). -/
def execMPsNa1 (sq : Bit) (num : BitVec 7) (s : State) : Host.Outcome State Fault Refusal :=
  decodeAsduOp (decMPsNa1 s.par sq num 0) s

/-- The decode of a M_ME_ND_1 ASDU at offset a of WIRE; in R220 its group is NVA and SQ is 0 or 1 (R241). -/
def decMMeNd1 (p : Params) (sq : Bit) (num : BitVec 7) (a : Nat) (w : List Byte) : Except CodecErr Asdu :=
  decTyped p 21 sq num a w

/-- M_ME_ND_1 as a bare ASDU (R241, R273). -/
def execMMeNd1 (sq : Bit) (num : BitVec 7) (s : State) : Host.Outcome State Fault Refusal :=
  decodeAsduOp (decMMeNd1 s.par sq num 0) s

end Sys2Proof.Machine
end

