-- ==== Sys2Proof/Machine/MonitorTagged.lean ====
section
/-! DEFINITION. The monitor-direction types 30 to 40, with the time tag CP56 (spec/45_type_registry.md R242 to R252). -/

namespace Sys2Proof.Machine

/-- The decode of a M_SP_TB_1 ASDU at offset a of WIRE; in R220 its group is SIQ CP56 and SQ is 0 only (R242). -/
def decMSpTb1 (p : Params) (vsq : Byte) (a : Nat) (w : List Byte) : Except CodecErr Asdu :=
  decTyped p 30 (vsqSq vsq) (vsqNum vsq) a w

/-- M_SP_TB_1 as a bare ASDU (R242, R273). -/
def execMSpTb1 (vsq : Byte) (s : State) : Host.Outcome State Fault Refusal :=
  decodeAsduOp (decMSpTb1 s.par vsq 0) s

/-- The decode of a M_DP_TB_1 ASDU at offset a of WIRE; in R220 its group is DIQ CP56 and SQ is 0 only (R243). -/
def decMDpTb1 (p : Params) (vsq : Byte) (a : Nat) (w : List Byte) : Except CodecErr Asdu :=
  decTyped p 31 (vsqSq vsq) (vsqNum vsq) a w

/-- M_DP_TB_1 as a bare ASDU (R243, R273). -/
def execMDpTb1 (vsq : Byte) (s : State) : Host.Outcome State Fault Refusal :=
  decodeAsduOp (decMDpTb1 s.par vsq 0) s

/-- The decode of a M_ST_TB_1 ASDU at offset a of WIRE; in R220 its group is VTI QDS CP56 and SQ is 0 only (R244). -/
def decMStTb1 (p : Params) (vsq : Byte) (a : Nat) (w : List Byte) : Except CodecErr Asdu :=
  decTyped p 32 (vsqSq vsq) (vsqNum vsq) a w

/-- M_ST_TB_1 as a bare ASDU (R244, R273). -/
def execMStTb1 (vsq : Byte) (s : State) : Host.Outcome State Fault Refusal :=
  decodeAsduOp (decMStTb1 s.par vsq 0) s

/-- The decode of a M_BO_TB_1 ASDU at offset a of WIRE; in R220 its group is BSI QDS CP56 and SQ is 0 only (R245). -/
def decMBoTb1 (p : Params) (vsq : Byte) (a : Nat) (w : List Byte) : Except CodecErr Asdu :=
  decTyped p 33 (vsqSq vsq) (vsqNum vsq) a w

/-- M_BO_TB_1 as a bare ASDU (R245, R273). -/
def execMBoTb1 (vsq : Byte) (s : State) : Host.Outcome State Fault Refusal :=
  decodeAsduOp (decMBoTb1 s.par vsq 0) s

/-- The decode of a M_ME_TD_1 ASDU at offset a of WIRE; in R220 its group is NVA QDS CP56 and SQ is 0 only (R246). -/
def decMMeTd1 (p : Params) (vsq : Byte) (a : Nat) (w : List Byte) : Except CodecErr Asdu :=
  decTyped p 34 (vsqSq vsq) (vsqNum vsq) a w

/-- M_ME_TD_1 as a bare ASDU (R246, R273). -/
def execMMeTd1 (vsq : Byte) (s : State) : Host.Outcome State Fault Refusal :=
  decodeAsduOp (decMMeTd1 s.par vsq 0) s

/-- The decode of a M_ME_TE_1 ASDU at offset a of WIRE; in R220 its group is SVA QDS CP56 and SQ is 0 only (R247). -/
def decMMeTe1 (p : Params) (vsq : Byte) (a : Nat) (w : List Byte) : Except CodecErr Asdu :=
  decTyped p 35 (vsqSq vsq) (vsqNum vsq) a w

/-- M_ME_TE_1 as a bare ASDU (R247, R273). -/
def execMMeTe1 (vsq : Byte) (s : State) : Host.Outcome State Fault Refusal :=
  decodeAsduOp (decMMeTe1 s.par vsq 0) s

/-- The decode of a M_ME_TF_1 ASDU at offset a of WIRE; in R220 its group is R32 QDS CP56 and SQ is 0 only (R248). -/
def decMMeTf1 (p : Params) (vsq : Byte) (a : Nat) (w : List Byte) : Except CodecErr Asdu :=
  decTyped p 36 (vsqSq vsq) (vsqNum vsq) a w

/-- M_ME_TF_1 as a bare ASDU (R248, R273). -/
def execMMeTf1 (vsq : Byte) (s : State) : Host.Outcome State Fault Refusal :=
  decodeAsduOp (decMMeTf1 s.par vsq 0) s

/-- The decode of a M_IT_TB_1 ASDU at offset a of WIRE; in R220 its group is BCR CP56 and SQ is 0 only (R249). -/
def decMItTb1 (p : Params) (vsq : Byte) (a : Nat) (w : List Byte) : Except CodecErr Asdu :=
  decTyped p 37 (vsqSq vsq) (vsqNum vsq) a w

/-- M_IT_TB_1 as a bare ASDU (R249, R273). -/
def execMItTb1 (vsq : Byte) (s : State) : Host.Outcome State Fault Refusal :=
  decodeAsduOp (decMItTb1 s.par vsq 0) s

/-- The decode of a M_EP_TD_1 ASDU at offset a of WIRE; in R220 its group is SEP CP16 CP56 and SQ is 0 only (R250). -/
def decMEpTd1 (p : Params) (vsq : Byte) (a : Nat) (w : List Byte) : Except CodecErr Asdu :=
  decTyped p 38 (vsqSq vsq) (vsqNum vsq) a w

/-- M_EP_TD_1 as a bare ASDU (R250, R273). -/
def execMEpTd1 (vsq : Byte) (s : State) : Host.Outcome State Fault Refusal :=
  decodeAsduOp (decMEpTd1 s.par vsq 0) s

/-- The decode of a M_EP_TE_1 ASDU at offset a of WIRE; in R220 its group is SPE QDP CP16 CP56 and SQ is 0 only (R251).
-/
def decMEpTe1 (p : Params) (vsq : Byte) (a : Nat) (w : List Byte) : Except CodecErr Asdu :=
  decTyped p 39 (vsqSq vsq) (vsqNum vsq) a w

/-- M_EP_TE_1 as a bare ASDU (R251, R273). -/
def execMEpTe1 (vsq : Byte) (s : State) : Host.Outcome State Fault Refusal :=
  decodeAsduOp (decMEpTe1 s.par vsq 0) s

/-- The decode of a M_EP_TF_1 ASDU at offset a of WIRE; in R220 its group is OCI QDP CP16 CP56 and SQ is 0 only (R252).
-/
def decMEpTf1 (p : Params) (vsq : Byte) (a : Nat) (w : List Byte) : Except CodecErr Asdu :=
  decTyped p 40 (vsqSq vsq) (vsqNum vsq) a w

/-- M_EP_TF_1 as a bare ASDU (R252, R273). -/
def execMEpTf1 (vsq : Byte) (s : State) : Host.Outcome State Fault Refusal :=
  decodeAsduOp (decMEpTf1 s.par vsq 0) s

end Sys2Proof.Machine
end

