-- ==== Sys2Proof/Machine/AsduDispatch.lean ====
section
/-! DEFINITION. `dec_asdu` (spec/43_asdu_dispatch.md R184): the header's own tests, the instruction word, and the decode
of the type it names. -/

namespace Sys2Proof.Machine

/-- The decode of the ASDU-level instruction i on the region w at offset a. The other instructions are no ASDU and no
type identifier names them: UnknownTypeId. -/
def decAsduInstr (p : Params) (i : Instr) (a : Nat) (w : List Byte) : Except CodecErr Asdu :=
  match i with
  | .mSpNa1 sq n => decMSpNa1 p sq n a w
  | .mSpTa1 vsq => decMSpTa1 p vsq a w
  | .mDpNa1 sq n => decMDpNa1 p sq n a w
  | .mDpTa1 vsq => decMDpTa1 p vsq a w
  | .mStNa1 sq n => decMStNa1 p sq n a w
  | .mStTa1 vsq => decMStTa1 p vsq a w
  | .mBoNa1 sq n => decMBoNa1 p sq n a w
  | .mBoTa1 vsq => decMBoTa1 p vsq a w
  | .mMeNa1 sq n => decMMeNa1 p sq n a w
  | .mMeTa1 vsq => decMMeTa1 p vsq a w
  | .mMeNb1 sq n => decMMeNb1 p sq n a w
  | .mMeTb1 vsq => decMMeTb1 p vsq a w
  | .mMeNc1 sq n => decMMeNc1 p sq n a w
  | .mMeTc1 vsq => decMMeTc1 p vsq a w
  | .mItNa1 sq n => decMItNa1 p sq n a w
  | .mItTa1 vsq => decMItTa1 p vsq a w
  | .mEpTa1 vsq => decMEpTa1 p vsq a w
  | .mEpTb1 vsq => decMEpTb1 p vsq a w
  | .mEpTc1 vsq => decMEpTc1 p vsq a w
  | .mPsNa1 sq n => decMPsNa1 p sq n a w
  | .mMeNd1 sq n => decMMeNd1 p sq n a w
  | .mSpTb1 vsq => decMSpTb1 p vsq a w
  | .mDpTb1 vsq => decMDpTb1 p vsq a w
  | .mStTb1 vsq => decMStTb1 p vsq a w
  | .mBoTb1 vsq => decMBoTb1 p vsq a w
  | .mMeTd1 vsq => decMMeTd1 p vsq a w
  | .mMeTe1 vsq => decMMeTe1 p vsq a w
  | .mMeTf1 vsq => decMMeTf1 p vsq a w
  | .mItTb1 vsq => decMItTb1 p vsq a w
  | .mEpTd1 vsq => decMEpTd1 p vsq a w
  | .mEpTe1 vsq => decMEpTe1 p vsq a w
  | .mEpTf1 vsq => decMEpTf1 p vsq a w
  | .cScNa1 vsq => decCScNa1 p vsq a w
  | .cDcNa1 vsq => decCDcNa1 p vsq a w
  | .cRcNa1 vsq => decCRcNa1 p vsq a w
  | .cSeNa1 vsq => decCSeNa1 p vsq a w
  | .cSeNb1 vsq => decCSeNb1 p vsq a w
  | .cSeNc1 vsq => decCSeNc1 p vsq a w
  | .cBoNa1 vsq => decCBoNa1 p vsq a w
  | .mEiNa1 vsq => decMEiNa1 p vsq a w
  | .ack | .nack | .fixedFrame | .variableFrame | .decFrame | .encFrame | .decAsdu | .encAsdu =>
    .error ⟨.unknownTypeId, a⟩

/-- The error of `dec_asdu` for a word the decoder rejects, and its position: the type identifier byte, or the VSQ byte
(R184 steps 1, 4, 5; R291). -/
def asduReject (a : Nat) (w : List Byte) : Reject → CodecErr
  | .truncatedInput => ⟨.truncatedInput, a + w.length⟩
  | .unknownFrameStart => ⟨.unknownFrameStart, a⟩
  | .unknownTypeId => ⟨.unknownTypeId, a⟩
  | .illegalSequenceMode => ⟨.illegalSequenceMode, a + 1⟩

/-- `dec_asdu(W, a, N)` with w = W[a..a+N) (R184). -/
def decAsdu (p : Params) (a : Nat) (w : List Byte) : Except CodecErr Asdu :=
  if w.length < 4 then .error ⟨.truncatedInput, a + w.length⟩
  else if vsqNum (byteAt w 1) = 0 then .error ⟨.vsqNumberZero, a + 1⟩
  else
    match decodeAsduWord p.registry w with
    | .error e => .error (asduReject a w e)
    | .ok i => decAsduInstr p i a w

end Sys2Proof.Machine
end

