-- ==== Sys2Proof/Machine/Link.lean ====
section
/-! DEFINITION. The link-frame codec (spec/40_link_frames.md): the four frame encodings ACK, NACK, FIXED and VARIABLE
as decodes of WIRE[0..WLEN), `dec_frame`, and `enc_frame`. -/

namespace Sys2Proof.Machine

/-- Step 1 of `dec_frame`, which every frame's decode comes after: an empty buffer is TruncatedInput at 0 (R116, R297
order 1). -/
def nonEmpty (f : BitVec 2 → List Byte → Except CodecErr FrameResult) (mode : BitVec 2) (w : List Byte) :
    Except CodecErr FrameResult :=
  if w.length = 0 then .error ⟨.truncatedInput, 0⟩ else f mode w

/-- `dec_single(neg)` (R110). -/
def decSingle (neg : Bit) (w : List Byte) : Except CodecErr FrameResult :=
  if 1 < w.length then .error ⟨.lengthMismatch, 1⟩
  else .ok { frame := .singleChar neg, len := 0, cserr := 0 }

/-- ACK: `dec_single(0)` (R110). -/
def decAck (_mode : BitVec 2) (w : List Byte) : Except CodecErr FrameResult := decSingle 0 w

/-- NACK: `dec_single(1)` (R111). -/
def decNack (_mode : BitVec 2) (w : List Byte) : Except CodecErr FrameResult := decSingle 1 w

/-- FIXED: `dec_fixed` (R112). -/
def decFixed (mode : BitVec 2) (w : List Byte) : Except CodecErr FrameResult :=
  if w.length < 5 then .error ⟨.truncatedInput, w.length⟩
  else if byteAt w 4 ≠ 0x16 then .error ⟨.unterminatedFrame, 4⟩
  else if 5 < w.length then .error ⟨.lengthMismatch, 5⟩
  else if mode = csFatal ∧ cscheck mode (byteAt w 3) (slice w 1 3) = 1 then .error ⟨.checksumMismatch, 3⟩
  else
    .ok { frame := .fixed (ctl (byteAt w 1)) (byteAt w 2) (byteAt w 3), len := 0,
          cserr := cscheck mode (byteAt w 3) (slice w 1 3) }

/-- The payload of a variable frame of length L: none when L = 2, else the ASDU of WIRE[6..L+4) (R113 step 13, R117). -/
def decPayload (p : Params) (L : Nat) (w : List Byte) : Except CodecErr (Option Asdu) :=
  if L = 2 then .ok none
  else
    match decAsdu p 6 (slice w 6 (L + 4)) with
    | .ok a => .ok (some a)
    | .error e => .error e

/-- Steps 7 to 14 of `dec_variable`, L being the length byte and every byte up to the second start byte tested
(R113). -/
def decVariableBody (p : Params) (mode : BitVec 2) (L : Nat) (w : List Byte) : Except CodecErr FrameResult :=
  if w.length < L + 6 then .error ⟨.truncatedInput, w.length⟩
  else if byteAt w (L + 5) ≠ 0x16 then .error ⟨.unterminatedFrame, L + 5⟩
  else if L + 6 < w.length then .error ⟨.lengthMismatch, L + 6⟩
  else if mode = csFatal ∧ cscheck mode (byteAt w (L + 4)) (slice w 4 (L + 4)) = 1 then
    .error ⟨.checksumMismatch, L + 4⟩
  else
    match decPayload p L w with
    | .error e => .error e
    | .ok asdu =>
      .ok { frame := .variableFrame (ctl (byteAt w 4)) (byteAt w 5) (byteAt w (L + 4)) asdu,
            len := BitVec.ofNat 8 L, cserr := cscheck mode (byteAt w (L + 4)) (slice w 4 (L + 4)) }

/-- VARIABLE: `dec_variable` (R113). -/
def decVariable (p : Params) (mode : BitVec 2) (w : List Byte) : Except CodecErr FrameResult :=
  if w.length < 2 then .error ⟨.truncatedInput, w.length⟩
  else if (byteAt w 1).toNat < 2 then .error ⟨.lengthMismatch, 1⟩
  else if w.length < 3 then .error ⟨.truncatedInput, w.length⟩
  else if byteAt w 2 ≠ byteAt w 1 then .error ⟨.lengthMismatch, 2⟩
  else if w.length < 4 then .error ⟨.truncatedInput, w.length⟩
  else if byteAt w 3 ≠ 0x68 then .error ⟨.unknownFrameStart, 3⟩
  else decVariableBody p mode (byteAt w 1).toNat w

/-- ACK on WIRE (R110, R271). -/
def execAck (s : State) : Host.Outcome State Fault Refusal := decodeFrameOp (nonEmpty decAck) s

/-- NACK on WIRE (R111, R271). -/
def execNack (s : State) : Host.Outcome State Fault Refusal := decodeFrameOp (nonEmpty decNack) s

/-- FIXED on WIRE (R112, R271). -/
def execFixedFrame (s : State) : Host.Outcome State Fault Refusal := decodeFrameOp (nonEmpty decFixed) s

/-- VARIABLE on WIRE (R113, R271). -/
def execVariableFrame (s : State) : Host.Outcome State Fault Refusal := decodeFrameOp (nonEmpty (decVariable s.par)) s

/-- The decode of the link-level instruction i. The other instructions have no start byte: UnknownFrameStart. -/
def decLinkInstr (p : Params) (i : Instr) (mode : BitVec 2) (w : List Byte) : Except CodecErr FrameResult :=
  match i with
  | .ack => decAck mode w
  | .nack => decNack mode w
  | .fixedFrame => decFixed mode w
  | .variableFrame => decVariable p mode w
  | .mSpNa1 _ _ | .mSpTa1 _ | .mDpNa1 _ _ | .mDpTa1 _ | .mStNa1 _ _ | .mStTa1 _ | .mBoNa1 _ _ | .mBoTa1 _
  | .mMeNa1 _ _ | .mMeTa1 _ | .mMeNb1 _ _ | .mMeTb1 _ | .mMeNc1 _ _ | .mMeTc1 _ | .mItNa1 _ _ | .mItTa1 _
  | .mEpTa1 _ | .mEpTb1 _ | .mEpTc1 _ | .mPsNa1 _ _ | .mMeNd1 _ _ | .mSpTb1 _ | .mDpTb1 _ | .mStTb1 _
  | .mBoTb1 _ | .mMeTd1 _ | .mMeTe1 _ | .mMeTf1 _ | .mItTb1 _ | .mEpTd1 _ | .mEpTe1 _ | .mEpTf1 _
  | .cScNa1 _ | .cDcNa1 _ | .cRcNa1 _ | .cSeNa1 _ | .cSeNb1 _ | .cSeNc1 _ | .cBoNa1 _ | .mEiNa1 _
  | .decFrame | .encFrame | .decAsdu | .encAsdu =>
    .error ⟨.unknownFrameStart, 0⟩

/-- The error of `dec_frame` for a first byte the decoder rejects (R116); the position is 0. -/
def linkReject : Reject → CodecErr
  | .truncatedInput => ⟨.truncatedInput, 0⟩
  | .unknownFrameStart => ⟨.unknownFrameStart, 0⟩
  | .unknownTypeId => ⟨.unknownTypeId, 0⟩
  | .illegalSequenceMode => ⟨.illegalSequenceMode, 0⟩

/-- `dec_frame(W, n)` with w = W[0..n) (R116): dispatch on the leading byte. -/
def decFrame (p : Params) (mode : BitVec 2) (w : List Byte) : Except CodecErr FrameResult :=
  match decodeLink w with
  | .error e => .error (linkReject e)
  | .ok i => decLinkInstr p i mode w

/-! ## Encoding (R121) -/

/-- A single character's byte (R121). -/
def singleByte (sc : Bit) : Byte := if sc = 0 then 0xE5 else 0xA2

/-- The bytes of a variable frame around a payload, and CSERR (R121 KIND = 3, R123). -/
def encVariable (cfg : Cfg) (r : Regs) (p : List Byte) : Except CodecErr (List Byte × Bit) :=
  if 255 < p.length + 2 then .error ⟨.lengthMismatch, 0⟩
  else
    match csgen cfg.csmode cfg.csgen r.cs (r.ctrl :: r.laddr :: p) with
    | .error e => .error e
    | .ok (cs, cserr) =>
      .ok ([0x68, BitVec.ofNat 8 (p.length + 2), BitVec.ofNat 8 (p.length + 2), 0x68] ++
        (r.ctrl :: r.laddr :: p) ++ [cs, 0x16], cserr)

/-- `enc_frame(R)` (R121): the bytes and CSERR. -/
def encFrame (p : Params) (cfg : Cfg) (r : Regs) (slots : Vector Slot Config.nslot) :
    Except CodecErr (List Byte × Bit) :=
  match r.kind.toNat with
  | 1 => .ok ([singleByte r.sc], 0)
  | 2 =>
    match csgen cfg.csmode cfg.csgen r.cs [r.ctrl, r.laddr] with
    | .error e => .error e
    | .ok (cs, cserr) => .ok ([0x10, r.ctrl, r.laddr, cs, 0x16], cserr)
  | 3 =>
    if r.hasasdu = 1 then
      match encAsdu p r slots with
      | .error e => .error e
      | .ok b => encVariable cfg r b
    else encVariable cfg r []
  | _ => .error ⟨.unknownFrameStart, 0⟩

end Sys2Proof.Machine
end

