-- ==== Sys2Proof/Machine/Commands.lean ====
section
/-! DEFINITION. The four commands (spec/46_host_operations.md R270 to R274). A command is the host write of its OP to
CMD: CMD.OP keeps the value (R24), and the engine runs the operation whole. -/

namespace Sys2Proof.Machine

/-- DEC_FRAME, OP = 0 (R271). -/
def execDecFrame (s : State) : Host.Outcome State Fault Refusal := decodeFrameOp (decFrame s.par) (s.setCmd 0)

/-- ENC_FRAME, OP = 1 (R272). -/
def execEncFrame (s : State) : Host.Outcome State Fault Refusal :=
  .next (encodeOp (encFrame s.par s.cfg s.regs s.slots) (s.setCmd 1))

/-- DEC_ASDU, OP = 2 (R273): `dec_asdu(WIRE, 0, WLEN)`. -/
def execDecAsdu (s : State) : Host.Outcome State Fault Refusal := decodeAsduOp (decAsdu s.par 0) (s.setCmd 2)

/-- The bytes of `enc_asdu`, with the CSERR of 0 that an ASDU command reports (R274, R278). -/
def bareResult : Except CodecErr (List Byte) → Except CodecErr (List Byte × Bit)
  | .ok b => .ok (b, 0)
  | .error e => .error e

/-- ENC_ASDU, OP = 3 (R274). -/
def execEncAsdu (s : State) : Host.Outcome State Fault Refusal :=
  .next (encodeOp (bareResult (encAsdu s.par s.regs s.slots)) (s.setCmd 3))

end Sys2Proof.Machine
end

