-- ==== Sys2Proof/Machine/Dispatch.lean ====
section
/-! DEFINITION. One arm per instruction of spec/opcode_table.json. -/

namespace Sys2Proof.Machine

def exec (i : Instr) (s : State) : Host.Outcome State Fault Refusal :=
  match i with
  | .ack => Sys2Proof.Machine.execAck s
  | .nack => Sys2Proof.Machine.execNack s
  | .fixedFrame => Sys2Proof.Machine.execFixedFrame s
  | .variableFrame => Sys2Proof.Machine.execVariableFrame s
  | .mSpNa1 sq num => Sys2Proof.Machine.execMSpNa1 sq num s
  | .mSpTa1 vsq => Sys2Proof.Machine.execMSpTa1 vsq s
  | .mDpNa1 sq num => Sys2Proof.Machine.execMDpNa1 sq num s
  | .mDpTa1 vsq => Sys2Proof.Machine.execMDpTa1 vsq s
  | .mStNa1 sq num => Sys2Proof.Machine.execMStNa1 sq num s
  | .mStTa1 vsq => Sys2Proof.Machine.execMStTa1 vsq s
  | .mBoNa1 sq num => Sys2Proof.Machine.execMBoNa1 sq num s
  | .mBoTa1 vsq => Sys2Proof.Machine.execMBoTa1 vsq s
  | .mMeNa1 sq num => Sys2Proof.Machine.execMMeNa1 sq num s
  | .mMeTa1 vsq => Sys2Proof.Machine.execMMeTa1 vsq s
  | .mMeNb1 sq num => Sys2Proof.Machine.execMMeNb1 sq num s
  | .mMeTb1 vsq => Sys2Proof.Machine.execMMeTb1 vsq s
  | .mMeNc1 sq num => Sys2Proof.Machine.execMMeNc1 sq num s
  | .mMeTc1 vsq => Sys2Proof.Machine.execMMeTc1 vsq s
  | .mItNa1 sq num => Sys2Proof.Machine.execMItNa1 sq num s
  | .mItTa1 vsq => Sys2Proof.Machine.execMItTa1 vsq s
  | .mEpTa1 vsq => Sys2Proof.Machine.execMEpTa1 vsq s
  | .mEpTb1 vsq => Sys2Proof.Machine.execMEpTb1 vsq s
  | .mEpTc1 vsq => Sys2Proof.Machine.execMEpTc1 vsq s
  | .mPsNa1 sq num => Sys2Proof.Machine.execMPsNa1 sq num s
  | .mMeNd1 sq num => Sys2Proof.Machine.execMMeNd1 sq num s
  | .mSpTb1 vsq => Sys2Proof.Machine.execMSpTb1 vsq s
  | .mDpTb1 vsq => Sys2Proof.Machine.execMDpTb1 vsq s
  | .mStTb1 vsq => Sys2Proof.Machine.execMStTb1 vsq s
  | .mBoTb1 vsq => Sys2Proof.Machine.execMBoTb1 vsq s
  | .mMeTd1 vsq => Sys2Proof.Machine.execMMeTd1 vsq s
  | .mMeTe1 vsq => Sys2Proof.Machine.execMMeTe1 vsq s
  | .mMeTf1 vsq => Sys2Proof.Machine.execMMeTf1 vsq s
  | .mItTb1 vsq => Sys2Proof.Machine.execMItTb1 vsq s
  | .mEpTd1 vsq => Sys2Proof.Machine.execMEpTd1 vsq s
  | .mEpTe1 vsq => Sys2Proof.Machine.execMEpTe1 vsq s
  | .mEpTf1 vsq => Sys2Proof.Machine.execMEpTf1 vsq s
  | .cScNa1 vsq => Sys2Proof.Machine.execCScNa1 vsq s
  | .cDcNa1 vsq => Sys2Proof.Machine.execCDcNa1 vsq s
  | .cRcNa1 vsq => Sys2Proof.Machine.execCRcNa1 vsq s
  | .cSeNa1 vsq => Sys2Proof.Machine.execCSeNa1 vsq s
  | .cSeNb1 vsq => Sys2Proof.Machine.execCSeNb1 vsq s
  | .cSeNc1 vsq => Sys2Proof.Machine.execCSeNc1 vsq s
  | .cBoNa1 vsq => Sys2Proof.Machine.execCBoNa1 vsq s
  | .mEiNa1 vsq => Sys2Proof.Machine.execMEiNa1 vsq s
  | .decFrame => Sys2Proof.Machine.execDecFrame s
  | .encFrame => Sys2Proof.Machine.execEncFrame s
  | .decAsdu => Sys2Proof.Machine.execDecAsdu s
  | .encAsdu => Sys2Proof.Machine.execEncAsdu s

end Sys2Proof.Machine
end

