-- ==== Sys2Proof/Machine/Fetch.lean ====
section
/-! DEFINITION. Where the next instruction comes from, and how a word of spec/opcode_table.json is laid there. A
command is the host's next step; a link-level or ASDU-level instruction is what a decode command finds in WIRE
(spec/20_memory.md R60, R67; spec/46_host_operations.md R279). -/

namespace Sys2Proof.Machine

/-- The size of the frame or ASDU an instruction word begins, every byte after the word being 0 (R98, R99). -/
def wordSize (p : Params) (nbits w : Nat) : Nat :=
  match tableLevel nbits w with
  | .cmd => 0
  | .link => if w % 256 = 0x10 then 5 else if w % 256 = 0x68 then 6 else 1
  | .asdu =>
    match p.lookup (byteAt (tableBytes nbits w) 0) with
    | none => 4
    | some row =>
      asduSize (p.gsize row) (vsqSq (byteAt (tableBytes nbits w) 1)) (vsqNum (byteAt (tableBytes nbits w) 1))

/-- The bytes of a word followed by zeros, up to its frame's or ASDU's size. -/
def wordImage (p : Params) (nbits w : Nat) : List Byte :=
  tableBytes nbits w ++ List.replicate (wordSize p nbits w - (tableBytes nbits w).length) 0

/-- The bytes b in WIRE from offset 0, and WLEN their number. -/
def placeBytes (s : State) (b : List Byte) : State :=
  (s.setWire (Memory.writeBytes s.par.bufsz s.wire 0 b)).setWlen b.length

/-- The state in which the very next step runs the instruction of a table word: a command is the host's next step; a
frame or a bare ASDU lies in WIRE from offset 0, WLEN is its size, and the host's next step is the START that decodes it
(assumption log 2). -/
def placeWord (s : State) (nbits w : Nat) : State :=
  match tableLevel nbits w with
  | .cmd => s.setPending (.start (BitVec.ofNat 2 w) :: s.pending)
  | .link => (placeBytes s (wordImage s.par nbits w)).setPending (.start 0 :: s.pending)
  | .asdu => (placeBytes s (wordImage s.par nbits w)).setPending (.start 2 :: s.pending)

end Sys2Proof.Machine
end

