-- ==== Sys2Proof/Machine/HostAccess.lean ====
section
/-! DEFINITION. The host's own accesses (spec/46_host_operations.md R275, R276, R277) and the extractor view FLD
(spec/10_state.md R31). A refused write changes nothing and is no error (R275, R305). -/

namespace Sys2Proof.Machine

/-! ## Registers by name -/

/-- The width of a scalar register (R26, R27, R28). -/
def regWidth : RecReg → Nat
  | .kind => 3
  | .sc | .hasasdu => 1
  | .ctrl | .laddr | .len | .cs | .ti | .vsq | .cotb | .ca => 8

/-- The value of a scalar register. -/
def Regs.get (r : Regs) : RecReg → Nat
  | .kind => r.kind.toNat
  | .sc => r.sc.toNat
  | .ctrl => r.ctrl.toNat
  | .laddr => r.laddr.toNat
  | .len => r.len.toNat
  | .cs => r.cs.toNat
  | .hasasdu => r.hasasdu.toNat
  | .ti => r.ti.toNat
  | .vsq => r.vsq.toNat
  | .cotb => r.cotb.toNat
  | .ca => r.ca.toNat

/-- A scalar register replaced; v fits (the host's write tests it). -/
def Regs.set (r : Regs) (x : RecReg) (v : Nat) : Regs :=
  match x with
  | .kind => { r with kind := BitVec.ofNat 3 v }
  | .sc => { r with sc := BitVec.ofNat 1 v }
  | .ctrl => { r with ctrl := BitVec.ofNat 8 v }
  | .laddr => { r with laddr := BitVec.ofNat 8 v }
  | .len => { r with len := BitVec.ofNat 8 v }
  | .cs => { r with cs := BitVec.ofNat 8 v }
  | .hasasdu => { r with hasasdu := BitVec.ofNat 1 v }
  | .ti => { r with ti := BitVec.ofNat 8 v }
  | .vsq => { r with vsq := BitVec.ofNat 8 v }
  | .cotb => { r with cotb := BitVec.ofNat 8 v }
  | .ca => { r with ca := BitVec.ofNat 8 v }

/-- The STATUS word: ST in bits 1:0, ERR in 5:2, CSERR in 6, ERRPOS in 18:7 (R25). -/
def Status.word (x : Status) : BitVec 19 := x.errpos ++ x.cserr ++ x.err ++ x.st

/-- The CFG word: CSMODE in bits 1:0, CSGEN in bit 2 (R23). -/
def Cfg.word (c : Cfg) : BitVec 3 := c.csgen ++ c.csmode

/-! ## The object store and the extractor view -/

/-- Slot i replaced by f of it; nothing where there is no slot i. -/
def State.updateSlot (s : State) (i : Nat) (f : Slot → Slot) : State :=
  if h : i < Config.nslot then s.setSlots (s.slots.set i (f s.slots[i])) else s

/-- Byte j of an element group replaced. -/
def setEgByte (sl : Slot) (j : Nat) (b : Byte) : Slot := { sl with eg := sl.eg.setIfInBounds j b }

/-- The bits of a place of an element group: `FLD(i, K.f)` (R31, R167). -/
def egField (eg : Vector Byte Config.gmax) (p : BitField) : Nat := getBits (leNat eg.toList) p.lo p.width

/-- Exactly the bits of a place replaced, every other bit of the group kept (R31). -/
def egSetField (eg : Vector Byte Config.gmax) (p : BitField) (v : Nat) : Vector Byte Config.gmax :=
  padGroup (leBytes Config.gmax (setBits (leNat eg.toList) p.lo p.width v))

/-- `FLD(i, K.f)` read: a pure function of EG[i] and TI, for every slot 0 to 126, in use or not; none where the read
is refused (R31, U7). -/
def fldRead (s : State) (i : Nat) (k : Kind) (f : Field) : Option Nat :=
  match s.slots[i]?, s.par.fldPlace s.regs.ti k f with
  | some sl, some p => some (egField sl.eg p)
  | _, _ => none

/-- `FLD(i, K.f) <- v` (R31, R275). -/
def fldWrite (s : State) (i : Nat) (k : Kind) (f : Field) (v : Nat) : State :=
  match s.par.fldPlace s.regs.ti k f with
  | none => s
  | some p =>
    if i < Config.nslot ∧ v < 2 ^ p.width then
      s.updateSlot i fun sl => { sl with eg := egSetField sl.eg p v }
    else s

/-! ## Reset (R277) -/

/-- RESET with a draw of the unspecified contents: the bytes of WIRE from offset 0 and the slots from slot 0; every
other piece of state at its reset value (R44). The parameters stay ("reset does not change it", R32), and so do the host
steps still to come, which are not the block's state. -/
def resetWith (s : State) (wire : List Byte) (slots : List Slot) : State :=
  { State.reset with
    par := s.par
    wire := Memory.writeBytes s.par.bufsz [] 0 wire
    slots := Vector.ofFn fun i => slots.getD i.val slotZero
    pending := s.pending }

/-! ## Host accesses -/

/-- A host access: a single step that changes only what is named (R275, R276, R277). -/
def applyAccess (a : Access) (s : State) : State :=
  match a with
  | .wire k b =>
    if k < s.par.bufsz ∧ b < 2 ^ 8 then s.setWire (Memory.write s.par.bufsz s.wire k (BitVec.ofNat 8 b)) else s
  | .wlen v => if v ≤ s.par.bufsz then s.setWlen v else s
  | .csmode v => if v = 3 then s else s.setCfg { s.cfg with csmode := v }
  | .csgen v => s.setCfg { s.cfg with csgen := v }
  | .reg r v => if v < 2 ^ regWidth r then s.setRegs (s.regs.set r v) else s
  | .addr i v =>
    if i < Config.nslot ∧ v < 2 ^ 16 then s.updateSlot i fun sl => { sl with addr := BitVec.ofNat 16 v } else s
  | .eg i j b =>
    if i < Config.nslot ∧ j < Config.gmax ∧ b < 2 ^ 8 then
      s.updateSlot i fun sl => setEgByte sl j (BitVec.ofNat 8 b)
    else s
  | .fld i k f v => fldWrite s i k f v
  | .status _ => s
  | .read _ => s
  | .reset wire slots => resetWith s wire slots

/-- The value a host read returns; none where the read is refused: an offset or index out of range, or an extractor
field that is undefined (R276, R31). -/
def hostRead (t : ReadTarget) (s : State) : Option Nat :=
  match t with
  | .wire k => if k < s.par.bufsz then some (Memory.read s.wire k).toNat else none
  | .wlen => some s.wlen.toNat
  | .cfg => some s.cfg.word.toNat
  | .cmd => some s.cmd.toNat
  | .status => some s.status.word.toNat
  | .reg r => some (s.regs.get r)
  | .addr i => s.slots[i]?.map fun sl => sl.addr.toNat
  | .eg i j => s.slots[i]?.bind fun sl => sl.eg[j]?.map fun b => b.toNat
  | .fld i k f => fldRead s i k f

end Sys2Proof.Machine
end

