-- ==== Sys2Proof/Machine/Step.lean ====
section
/-! DEFINITION. One step of the machine (spec/46_host_operations.md R279): the host's next step. -/

namespace Sys2Proof.Machine

/-- One step (R279). A START decodes CMD.OP to its command and runs it whole (R270); an access has its effect (R275 to
R277). With no host step to come the engine is idle and nothing changes (R332: "Nothing runs until the host issues a
START"). -/
def step (s : State) : Host.Outcome State Fault Refusal :=
  match s.pending with
  | [] => .next s
  | .start op :: rest => exec (decodeCmd op) (s.setPending rest)
  | .access a :: rest => .next (applyAccess a (s.setPending rest))

/-- The state whose next step runs the instruction of a table word (`Machine/Fetch.lean`). -/
def State.withFetchWord (s : State) (nbits w : Nat) : State := placeWord s nbits w

end Sys2Proof.Machine
end

