-- ==== Sys2Proof/Machine/View.lean ====
section
/-! DEFINITION. The abstract record the registers stand for (spec/10_state.md R34). -/

namespace Sys2Proof.Machine

/-- The object list of `view_asdu`: the slots in use (R34). -/
def viewObjs (g : Nat) (sq : Bit) (num : BitVec 7) (slots : Vector Slot Config.nslot) : Objs :=
  if sq = 0 then .discrete ((slots.toList.take num.toNat).map fun sl => (sl.addr, sl.eg.toList.take g))
  else .sequence slots[0].addr ((slots.toList.take num.toNat).map fun sl => sl.eg.toList.take g)

/-- `view_asdu(REC)`: defined when known(TI) and VSQ.NUM >= 1 (R34). -/
def viewAsdu (p : Params) (r : Regs) (slots : Vector Slot Config.nslot) : Option Asdu :=
  match p.lookup r.ti with
  | none => none
  | some row =>
    if vsqNum r.vsq = 0 then none
    else
      some { ti := r.ti, sq := vsqSq r.vsq, num := vsqNum r.vsq, test := cotTest r.cotb, neg := cotNeg r.cotb,
             cot := cotCause r.cotb, ca := r.ca,
             objs := viewObjs (p.gsize row) (vsqSq r.vsq) (vsqNum r.vsq) slots }

/-- `view(REC)` (R34); none where the spec leaves it undefined. -/
def view (p : Params) (r : Regs) (slots : Vector Slot Config.nslot) : Option Record :=
  match r.kind.toNat with
  | 0 => some (.frame .noFrame)
  | 1 => some (.frame (.singleChar r.sc))
  | 2 => some (.frame (.fixed (ctl r.ctrl) r.laddr r.cs))
  | 3 =>
    if r.hasasdu = 1 then
      (viewAsdu p r slots).map fun a => .frame (.variableFrame (ctl r.ctrl) r.laddr r.cs (some a))
    else some (.frame (.variableFrame (ctl r.ctrl) r.laddr r.cs none))
  | 4 => (viewAsdu p r slots).map .asdu
  | _ => none

end Sys2Proof.Machine
end

