-- ==== Sys2Proof/Machine/Elements.lean ====
section
/-! DEFINITION. `unpack_K` and `pack_K` (spec/41_timestamps.md R140; spec/42_elements.md R150; spec/44_commands.md R210)
over the layout the parameters give a kind, and the readings of a field's value (spec/30_encoding.md R91). -/

namespace Sys2Proof.Machine

/-- The field at a place of an element's bytes. -/
def unpackField (b : List Byte) (p : BitField) : Nat := getBits (leNat b) p.lo p.width

/-- `unpack_K(b).f` (R150), which never fails; none when the kind has no field f. -/
def unpackKind (p : Params) (k : Kind) (b : List Byte) (f : Field) : Option Nat :=
  (p.fieldOf k f).map (unpackField b)

/-- Every field of a layout has a value no wider than the field. -/
def fieldsFit (l : List (Field × BitField)) (r : Field → Nat) : Bool := l.all fun e => decide (r e.1 < 2 ^ e.2.width)

/-- The number whose bits are the fields' values in their places. -/
def packNat (l : List (Field × BitField)) (r : Field → Nat) : Nat :=
  l.foldl (fun v e => setBits v e.2.lo e.2.width (r e.1)) 0

/-- `pack_K(r)` (R150): the bytes of a kind of which each field has the value r gives it; none, the refusal of R150,
when a value is wider than its field. -/
def packKind (p : Params) (k : Kind) (r : Field → Nat) : Option (List Byte) :=
  if fieldsFit (p.layout k) r then some (leBytes (p.kindSize k) (packNat (p.layout k) r)) else none

/-- The width of the two's complement reading of a field that has one (R91 item 4): SVA and NVA as sint_16, the
counter of BCR as sint_32, the value of VTI as sint_7. The block never computes a reading (R156, R158); the stored
field is the raw bit pattern. -/
def signedWidth : Kind → Field → Option Nat
  | .nva, .raw => some 16
  | .sva, .raw => some 16
  | .bcr, .cnt => some 32
  | .vti, .val => some 7
  | _, _ => none

/-- The integer reading of a field value: two's complement where R91 says so, else the unsigned value. -/
def reading (k : Kind) (f : Field) (v : Nat) : Int :=
  match signedWidth k f with
  | some n => sint n v
  | none => v

/-- The fraction an NVA field reads as: sint_16(raw) / 32768 (R156). -/
def nvaFraction (raw : Nat) : ℚ := (sint 16 raw : ℚ) / 32768

end Sys2Proof.Machine
end

