-- ==== Sys2Proof/Safety.lean ====
section
/-! DEFINITION. What claims call a safe state and a safe run, and the terms in which claims say where the bytes of a
frame or of an ASDU lie (spec/20_memory.md R67) and what an operation leaves alone (spec/10_state.md R37). These terms
are written on single bytes of WIRE and single slots, apart from the codec's own functions. -/

namespace Sys2Proof.Machine

/-! ## Safe states and runs -/

/-- STATUS as the engine can have written it (spec/10_state.md R25, U12; spec/60_exceptions.md R290, R291, R300): ST is
never 3 and ERR never above 8; ERR and ERRPOS are 0 unless ST is ERR, and ERR is not 0 when ST is ERR; CSERR is 0 in
IDLE, and with ST = ERR it is 1 exactly when ERR is ChecksumMismatch; ERRPOS is at most the size of WIRE, n. -/
def Status.legal (n : Nat) (x : Status) : Prop :=
  x.st ≠ 3 ∧ x.err.toNat ≤ 8 ∧ (x.st ≠ 2 → x.err = 0 ∧ x.errpos = 0) ∧ (x.st = 2 → x.err ≠ 0) ∧
    (x.st = 0 → x.cserr = 0) ∧ (x.st = 2 → (x.cserr = 1 ↔ x.err = 8)) ∧ x.errpos.toNat ≤ n

/-- The states a block is ever in: parameters that R6 allows, WIRE in its canonical form, WLEN at most BUFSZ (R22),
CSMODE not the reserved 3 (R23), STATUS legal. -/
structure Inv (s : State) : Prop where
  par : s.par.valid = true
  wire : Memory.wf s.par.bufsz s.wire = true
  wlen : s.wlen.toNat ≤ s.par.bufsz
  csmode : s.cfg.csmode ≠ 3
  status : Status.legal s.par.bufsz s.status

/-- The block was built with the spec's own REGISTRY and LAYOUTS and any BUFSZ that R6 allows. -/
def OnSpecTables (s : State) : Prop := s.par = specTables s.par.bufsz ∧ 1782 ≤ s.par.bufsz ∧ s.par.bufsz ≤ 4095

/-- A step that goes on: neither a fault nor a refusal. -/
def Completes (s : State) : Prop := ∃ t, step s = .next t

/-- A run of k steps that goes on throughout. -/
def RunsFor (k : Nat) (s : State) : Prop :=
  match k with
  | 0 => True
  | n + 1 => ∃ t, step s = .next t ∧ RunsFor n t

/-! ## Bytes of WIRE -/

/-- The byte at offset k of WIRE. -/
def State.byte (s : State) (k : Nat) : Byte := Memory.read s.wire k

/-- The 2-byte little-endian number at offset p of WIRE (R61). -/
def State.word16 (s : State) (p : Nat) : Nat := (s.byte p).toNat + 256 * (s.byte (p + 1)).toNat

/-- The sum modulo 256 of the n bytes of WIRE from offset p (R114). -/
def State.sumAt (s : State) (p n : Nat) : Nat := ((List.range n).map fun i => (s.byte (p + i)).toNat).sum % 256

/-- CSERR for the checksum byte c over the n bytes of WIRE from offset p, under the policy CSMODE (R114). -/
def State.cserrAt (s : State) (c : Byte) (p n : Nat) : Bit :=
  if s.cfg.csmode = 0 then 0 else if c.toNat = s.sumAt p n then 0 else 1

/-! ## Objects in WIRE and in the object store -/

/-- The size of an object list: n objects of group size g (R88, R89, R99). -/
def listBytes (g : Nat) (sq : Bit) (n : Nat) : Nat := if sq = 0 then n * (2 + g) else 2 + n * g

/-- Where object i's element group starts in an ASDU that starts at offset a (R88, R89). -/
def groupOffset (a g : Nat) (sq : Bit) (i : Nat) : Nat := if sq = 0 then a + 4 + i * (2 + g) + 2 else a + 6 + i * g

/-- Object i's logical address in the ASDU that starts at offset a of WIRE: its own with SQ = 0, (base + i) mod 65536
with SQ = 1 (R188). -/
def State.objectAddr (s : State) (a g : Nat) (sq : Bit) (i : Nat) : Nat :=
  if sq = 0 then s.word16 (a + 4 + i * (2 + g)) else (s.word16 (a + 4) + i) % 65536

/-- The object store of t after the ASDU at offset a of s's WIRE was loaded: n slots hold their object's address and
group, the bytes above the group 0; the other slots are as in s (R36, R186, R187). -/
def ObjectsLoaded (s t : State) (a g : Nat) (sq : Bit) (n : Nat) : Prop :=
  ∀ i (h : i < Config.nslot),
    if i < n then
      t.slots[i].addr.toNat = s.objectAddr a g sq i ∧
        ∀ j (hj : j < Config.gmax), t.slots[i].eg[j] = if j < g then s.byte (groupOffset a g sq i + j) else 0
    else t.slots[i] = s.slots[i]

/-- WIRE of t holds from offset a on the ASDU of s's registers: the header, then the n objects in the slots (R85,
R190). -/
def AsduWritten (s t : State) (a g : Nat) (sq : Bit) (n : Nat) : Prop :=
  t.byte a = s.regs.ti ∧ t.byte (a + 1) = s.regs.vsq ∧ t.byte (a + 2) = s.regs.cotb ∧ t.byte (a + 3) = s.regs.ca ∧
    ∀ i (h : i < Config.nslot), i < n →
      (if sq = 0 then t.word16 (a + 4 + i * (2 + g)) = s.slots[i].addr.toNat
       else t.word16 (a + 4) = s.slots[0].addr.toNat) ∧
        ∀ j (hj : j < Config.gmax), j < g → t.byte (groupOffset a g sq i + j) = s.slots[i].eg[j]

/-- The element b of a kind has the listed fields with the listed values, and no other field (R150). -/
def ElementHas (p : Params) (k : Kind) (b : List Byte) (l : List (Field × Nat)) : Prop :=
  ∀ f, unpackKind p k b f = assoc f l

/-! ## What an operation leaves alone -/

/-- What every decode leaves alone: the parameters (R32), every byte of WIRE, WLEN, CFG, and the host steps to come
(R37). -/
def KeepsWireSide (s t : State) : Prop :=
  t.par = s.par ∧ (∀ k, t.byte k = s.byte k) ∧ t.wlen = s.wlen ∧ t.cfg = s.cfg ∧ t.pending = s.pending

/-- What every encode leaves alone: the parameters (R32), REC, the object store, CFG, and the host steps to come
(R37). -/
def KeepsRecordSide (s t : State) : Prop :=
  t.par = s.par ∧ t.regs = s.regs ∧ t.slots = s.slots ∧ t.cfg = s.cfg ∧ t.pending = s.pending

/-! ## How an operation ends -/

/-- Instruction i ends a decode with the error of a code at a position: STATUS reports it, every scalar register is 0,
CMD is op, and nothing else changes (R300 fail_decode). -/
def FailsDecode (i : Instr) (s : State) (op : BitVec 2) (code : BitVec 4) (p : Nat) : Prop :=
  exec i s = .next { s with
    cmd := op
    regs := Regs.zero
    status := { st := 2, err := code, cserr := if code = 8 then 1 else 0, errpos := BitVec.ofNat 12 p } }

/-- Instruction i ends an encode with the error of a code: STATUS reports it with position 0, WLEN is 0, CMD is op, and
nothing else changes (R300 fail_encode). -/
def FailsEncode (i : Instr) (s : State) (op : BitVec 2) (code : BitVec 4) : Prop :=
  exec i s = .next { s with
    cmd := op
    wlen := 0
    status := { st := 2, err := code, cserr := if code = 8 then 1 else 0, errpos := 0 } }

/-- t is s after a bare ASDU of a type with group size g was decoded from WIRE: the wire side kept, KIND 4, the header
registers the four header bytes, every other scalar 0, the objects loaded, STATUS OK (R273). CMD is not part of it. -/
def LoadsBareAsdu (s t : State) (ti : Byte) (g : Nat) (sq : Bit) (num : BitVec 7) : Prop :=
  KeepsWireSide s t ∧
    t.regs = { Regs.zero with kind := 4, ti := ti, vsq := sq ++ num, cotb := s.byte 2, ca := s.byte 3 } ∧
    ObjectsLoaded s t 0 g sq num.toNat ∧ t.status = { st := 1, err := 0, cserr := 0, errpos := 0 }

/-- The instructions that decode: the link-level and ASDU-level rows and the commands DEC_FRAME and DEC_ASDU. -/
def Decodes (i : Instr) : Prop := i.level ≠ .cmd ∨ i = .decFrame ∨ i = .decAsdu

/-- CMD after a decoding instruction: a command keeps its own OP there (R24), the frames and types are no write of
CMD. -/
def cmdAfter (i : Instr) (s : State) : BitVec 2 :=
  if i = .decFrame then 0 else if i = .decAsdu then 2 else s.cmd

end Sys2Proof.Machine
end

