-- ==== Sys2Proof/Certificates/Slice0/Obligations.lean ====
section
/-! DEFINITION. The statements for the provers. Each docstring names the rule of spec/ it formalises; "derived" in
OBLIGATIONS.json marks those that state a rule in part or rest on several. A statement that rests on a choice of the
model names the assumption log's entry. A statement about any parameters asks at most that
they are among those R6 allows (`Params.valid`); one that names a type's size or a field's place is about the spec's own
tables. -/

open Sys2Proof Sys2Proof.Machine

/-! ## Encoding -/

/-- Decode and encode agree on every instruction, under any registry: the bytes of a well-formed instruction's word,
whatever follows them, decode at its level to that instruction (R86, R92, R93, R94, R101). -/
def Obligations.DecodeOfEncode : Prop :=
  ∀ (rs : List Row) (i : Instr) (rest : List Byte), i.wellFormed rs = true →
    decode rs i.level (encode i ++ rest) = .ok i

/-- Every mnemonic names exactly one encoding (R101), under any registry: bytes that decode at the link or the ASDU
level begin with the word of the instruction they decode to, and at the command level the byte agrees with that word in
bits 1:0. -/
def Obligations.EncodeOfDecode : Prop :=
  ∀ (rs : List Row) (l : Level) (bs : List Byte) (i : Instr), decode rs l bs = .ok i →
    i.level = l ∧
      if l = .cmd then
        ∃ b rest, bs = b :: rest ∧ ∃ x, encode i = [x] ∧ x.toNat = b.toNat % 4
      else ∃ rest, bs = encode i ++ rest

/-- A few words of spec/opcode_table.json, written out from the table, decode to the row's instruction (R92, R93, R94,
R270): a sanity statement. That the 8-bit word 3, which matches the row of TI 3 too, is read as the command of CMD.OP =
3 is the model's choice (assumption log 6). -/
def Obligations.TableWordsDecode : Prop :=
  decodeTableWord 8 0xE5 = some .ack ∧
    decodeTableWord 8 0x68 = some .variableFrame ∧
    decodeTableWord 16 (0x01 + 256 * 0x83) = some (.mSpNa1 1 3) ∧
    decodeTableWord 16 (0x1E + 256 * 0x01) = some (.mSpTb1 0x01) ∧
    decodeTableWord 16 (0x1E + 256 * 0x81) = none ∧
    decodeTableWord 16 (0x2D + 256 * 0x01) = some (.cScNa1 0x01) ∧
    decodeTableWord 16 0x99 = none ∧
    decodeTableWord 8 0x03 = some .encAsdu

/-- The dispatch on the byte at offset 0 (R92, R116), whatever the registry. -/
def Obligations.LinkDispatch : Prop :=
  ∀ (rs : List Row) (b : Byte) (rest : List Byte),
    decode rs .link (b :: rest) =
      if b.toNat = 0xE5 then .ok .ack
      else if b.toNat = 0xA2 then .ok .nack
      else if b.toNat = 0x10 then .ok .fixedFrame
      else if b.toNat = 0x68 then .ok .variableFrame
      else .error .unknownFrameStart

/-- The decoder accepts exactly the words the registry allows (R93, R94), for every registry that R6 allows: an unknown
type identifier is UnknownTypeId, SQ = 1 on a sequence-illegal type is IllegalSequenceMode, and every other word,
whatever its NUM, is the instruction whose encoding it is. -/
def Obligations.DecoderFollowsRegistry : Prop :=
  ∀ (p : Params) (ti vsq : Byte) (rest : List Byte), p.valid = true →
    (p.lookup ti = none → decode p.registry .asdu (ti :: vsq :: rest) = .error .unknownTypeId) ∧
      ∀ row, p.lookup ti = some row →
        (vsqSq vsq = 1 → row.seqLegal = false →
          decode p.registry .asdu (ti :: vsq :: rest) = .error .illegalSequenceMode) ∧
        (vsqSq vsq = 0 ∨ row.seqLegal = true →
          ∃ i, decode p.registry .asdu (ti :: vsq :: rest) = .ok i ∧ encode i = [ti, vsq])

/-- IllegalSequenceMode is about the pair (type identifier, SQ) only (R189): under the spec's registry it is the
decoder's answer exactly when SQ is 1 and the type identifier is one of the thirty. -/
def Obligations.IllegalSequencePairs : Prop :=
  ∀ (ti vsq : Byte) (rest : List Byte),
    decode specRegistry .asdu (ti :: vsq :: rest) = .error .illegalSequenceMode ↔
      vsqSq vsq = 1 ∧
        ti.toNat ∈ [2, 4, 6, 8, 10, 12, 14, 16, 17, 18, 19, 30, 31, 32, 33, 34, 35, 36, 37, 38, 39, 40, 45, 46, 47,
          48, 49, 50, 51, 70]

/-! ## A step runs the decoded instruction -/

/-- A step is the host's next step (R270, R275, R279, R332): a START runs the instruction that CMD.OP decodes to, on
the state that has consumed the host step; an access has the access's effect; with no host step to come the engine is
idle and nothing changes. How the host's steps reach the machine is the model's own choice (assumption log 2). -/
def Obligations.StepRunsHostStep : Prop :=
  (∀ (s : State) (op : BitVec 2) (rest : List HostAction), s.pending = .start op :: rest →
    ∃ i, decode s.par.registry .cmd [op.setWidth 8] = .ok i ∧ i.wellFormed s.par.registry = true ∧ i.level = .cmd ∧
      step s = exec i { s with pending := rest }) ∧
  (∀ (s : State) (a : Access) (rest : List HostAction), s.pending = .access a :: rest →
    step s = .next (applyAccess a { s with pending := rest })) ∧
  ∀ s : State, s.pending = [] → step s = .next s

/-- A START of DEC_FRAME runs the link-level instruction that the bytes of WIRE decode to, and leaves 0 in CMD.OP (R116,
R270, R271). -/
def Obligations.StartDecFrameRunsFrame : Prop :=
  ∀ (s : State) (rest : List HostAction) (i : Instr), s.pending = .start 0 :: rest →
    s.wlen.toNat ≤ s.par.bufsz → decode s.par.registry .link ((List.range s.wlen.toNat).map s.byte) = .ok i →
      i.wellFormed s.par.registry = true ∧ step s = exec i { s with pending := rest, cmd := 0 }

/-- A START of DEC_ASDU runs the ASDU-level instruction that the bytes of WIRE decode to, and leaves 2 in CMD.OP (R184,
R270, R273). -/
def Obligations.StartDecAsduRunsType : Prop :=
  ∀ (s : State) (rest : List HostAction) (i : Instr), s.pending = .start 2 :: rest →
    s.wlen.toNat ≤ s.par.bufsz → decode s.par.registry .asdu ((List.range s.wlen.toNat).map s.byte) = .ok i →
      step s = exec i { s with pending := rest, cmd := 2 }

/-! ## Link frames -/

/-- ACK and NACK on a one-byte buffer (R110, R111): KIND 1, SC, every other scalar 0, CSERR 0; nothing else changes.
The row tested the byte at offset 0 already; that its meaning does not test it again, so that the statement holds
whatever that byte is, is the model's choice (assumption log 9). -/
def Obligations.SingleCharacterDecodes : Prop :=
  ∀ s : State, s.wlen = 1 → s.wlen.toNat ≤ s.par.bufsz →
    exec .ack s = .next { s with
      regs := { Regs.zero with kind := 1, sc := 0 }
      status := { st := 1, err := 0, cserr := 0, errpos := 0 } } ∧
    exec .nack s = .next { s with
      regs := { Regs.zero with kind := 1, sc := 1 }
      status := { st := 1, err := 0, cserr := 0, errpos := 0 } }

/-- FIXED on a five-byte buffer that ends in 16 (R112, R114): KIND 2, the control byte, the link address and the
checksum byte as they stand, CSERR by the policy, which must not be FATAL with a wrong checksum; nothing else changes.
That the row's meaning does not test the byte at offset 0 again is the model's choice (assumption log 9). -/
def Obligations.FixedFrameDecodes : Prop :=
  ∀ s : State, s.wlen = 5 → s.wlen.toNat ≤ s.par.bufsz → s.byte 4 = 0x16 →
    (s.cfg.csmode = 2 → s.cserrAt (s.byte 3) 1 2 = 0) →
    exec .fixedFrame s = .next { s with
      regs := { Regs.zero with kind := 2, ctrl := s.byte 1, laddr := s.byte 2, cs := s.byte 3 }
      status := { st := 1, err := 0, cserr := s.cserrAt (s.byte 3) 1 2, errpos := 0 } }

/-- VARIABLE with L = 2 (R113): a frame with an empty payload and no ASDU; the object store is untouched. That the
row's meaning does not test the byte at offset 0 again is the model's choice (assumption log 9). -/
def Obligations.EmptyVariableFrameDecodes : Prop :=
  ∀ s : State, s.wlen = 8 → s.wlen.toNat ≤ s.par.bufsz → s.byte 1 = 2 → s.byte 2 = 2 → s.byte 3 = 0x68 →
    s.byte 7 = 0x16 →
    (s.cfg.csmode = 2 → s.cserrAt (s.byte 6) 4 2 = 0) →
    exec .variableFrame s = .next { s with
      regs := { Regs.zero with kind := 3, ctrl := s.byte 4, laddr := s.byte 5, len := 2, cs := s.byte 6 }
      status := { st := 1, err := 0, cserr := s.cserrAt (s.byte 6) 4 2, errpos := 0 } }

/-- VARIABLE with an ASDU (R113, R117, R119, R184): the link part, the four header bytes and the objects of the ASDU at
offset 6 are loaded; LEN is L; the wire side and CMD are kept. That the row's meaning does not test the byte at offset
0 again is the model's choice (assumption log 9). -/
def Obligations.VariableFrameDecodes : Prop :=
  ∀ (s : State) (row : Row) (L : Nat), s.par.valid = true → s.par.lookup (s.byte 6) = some row →
    vsqNum (s.byte 7) ≠ 0 → (vsqSq (s.byte 7) = 1 → row.seqLegal = true) →
    L = 6 + listBytes (s.par.gsize row) (vsqSq (s.byte 7)) (vsqNum (s.byte 7)).toNat → s.wlen.toNat = L + 6 →
    (s.byte 1).toNat = L → s.byte 2 = s.byte 1 → s.byte 3 = 0x68 → s.byte (L + 5) = 0x16 →
    (s.cfg.csmode = 2 → s.cserrAt (s.byte (L + 4)) 4 L = 0) →
    ∃ t, exec .variableFrame s = .next t ∧ KeepsWireSide s t ∧ t.cmd = s.cmd ∧
      t.regs = { kind := 3, sc := 0, ctrl := s.byte 4, laddr := s.byte 5, len := s.byte 1, cs := s.byte (L + 4),
                 hasasdu := 1, ti := s.byte 6, vsq := s.byte 7, cotb := s.byte 8, ca := s.byte 9 } ∧
      ObjectsLoaded s t 6 (s.par.gsize row) (vsqSq (s.byte 7)) (vsqNum (s.byte 7)).toNat ∧
      t.status = { st := 1, err := 0, cserr := s.cserrAt (s.byte (L + 4)) 4 L, errpos := 0 }

/-- REC.LEN (R119): a variable frame's decode leaves in LEN the length byte as received, which is 2 plus the size of the
ASDU, or 2 with no ASDU; a decode that leaves another KIND leaves LEN 0. -/
def Obligations.LenIsTwoPlusAsdu : Prop :=
  ∀ s t : State, exec .decFrame s = .next t → t.status.st = 1 →
    if t.regs.kind = 3 then
      t.regs.len = s.byte 1 ∧
        (t.regs.hasasdu = 0 → t.regs.len.toNat = 2) ∧
        (t.regs.hasasdu = 1 → ∃ g, s.par.gsizeOf t.regs.ti = some g ∧
          t.regs.len.toNat = 2 + 4 + listBytes g (vsqSq t.regs.vsq) (vsqNum t.regs.vsq).toNat)
    else t.regs.len = 0

/-! ## The forty types -/

/-- The ten sequence-legal types (R221, R223, R225, R227, R229, R231, R233, R235, R240, R241), with both values of SQ
(R88, R89, R186, R187, R188): a bare ASDU is loaded, of n objects with an address each in 4 + n * (2 + g) bytes, or of
one base address and n groups with nothing between them in 4 + 2 + n * g bytes. That the row's meaning takes the type
from the row and does not test bytes 0 and 1 of WIRE again is the model's choice (assumption log 9). -/
def Obligations.SequenceTypesDecode : Prop :=
  ∀ (f : Bit → BitVec 7 → Instr) (ti : Byte) (g : Nat),
    (f, ti, g) ∈ ([(Instr.mSpNa1, 1, 1), (Instr.mDpNa1, 3, 1), (Instr.mStNa1, 5, 2), (Instr.mBoNa1, 7, 5),
        (Instr.mMeNa1, 9, 3)]
      ++ [(Instr.mMeNb1, 11, 3), (Instr.mMeNc1, 13, 5), (Instr.mItNa1, 15, 5), (Instr.mPsNa1, 20, 5),
        (Instr.mMeNd1, 21, 2)] : List ((Bit → BitVec 7 → Instr) × Byte × Nat)) →
    ∀ (s : State) (sq : Bit) (n : BitVec 7), OnSpecTables s → n ≠ 0 →
      s.wlen.toNat = (if sq = 0 then 4 + n.toNat * (2 + g) else 4 + 2 + n.toNat * g) →
      ∃ t, exec (f sq n) s = .next t ∧ t.cmd = s.cmd ∧ LoadsBareAsdu s t ti g sq n

/-- The eleven types with a CP24 time tag (R222, R224, R226, R228, R230, R232, R234, R236, R237, R238, R239): discrete
objects; SQ = 1 is IllegalSequenceMode at the VSQ byte (R189, R299). That the row's meaning takes the type from the row
and does not test bytes 0 and 1 of WIRE again is the model's choice (assumption log 9). -/
def Obligations.Cp24TypesDecode : Prop :=
  ∀ (f : Byte → Instr) (ti : Byte) (g : Nat),
    (f, ti, g) ∈ ([(Instr.mSpTa1, 2, 4), (Instr.mDpTa1, 4, 4), (Instr.mStTa1, 6, 5), (Instr.mBoTa1, 8, 8),
        (Instr.mMeTa1, 10, 6), (Instr.mMeTb1, 12, 6)]
      ++ [(Instr.mMeTc1, 14, 8), (Instr.mItTa1, 16, 8), (Instr.mEpTa1, 17, 6), (Instr.mEpTb1, 18, 7),
        (Instr.mEpTc1, 19, 7)] : List ((Byte → Instr) × Byte × Nat)) →
    ∀ (s : State) (vsq : Byte), OnSpecTables s → vsqNum vsq ≠ 0 →
      (vsqSq vsq = 0 → s.wlen.toNat = 4 + (vsqNum vsq).toNat * (2 + g) →
        ∃ t, exec (f vsq) s = .next t ∧ t.cmd = s.cmd ∧ LoadsBareAsdu s t ti g 0 (vsqNum vsq)) ∧
      (vsqSq vsq = 1 → 4 ≤ s.wlen.toNat → s.wlen.toNat ≤ s.par.bufsz → FailsDecode (f vsq) s s.cmd 6 1)

/-- The eleven types with a CP56 time tag (R242 to R252): discrete objects; SQ = 1 is IllegalSequenceMode at the VSQ
byte (R189, R299). That the row's meaning takes the type from the row and does not test bytes 0 and 1 of WIRE again is
the model's choice (assumption log 9). -/
def Obligations.Cp56TypesDecode : Prop :=
  ∀ (f : Byte → Instr) (ti : Byte) (g : Nat),
    (f, ti, g) ∈ ([(Instr.mSpTb1, 30, 8), (Instr.mDpTb1, 31, 8), (Instr.mStTb1, 32, 9), (Instr.mBoTb1, 33, 12),
        (Instr.mMeTd1, 34, 10), (Instr.mMeTe1, 35, 10)]
      ++ [(Instr.mMeTf1, 36, 12), (Instr.mItTb1, 37, 12), (Instr.mEpTd1, 38, 10), (Instr.mEpTe1, 39, 11),
        (Instr.mEpTf1, 40, 11)] : List ((Byte → Instr) × Byte × Nat)) →
    ∀ (s : State) (vsq : Byte), OnSpecTables s → vsqNum vsq ≠ 0 →
      (vsqSq vsq = 0 → s.wlen.toNat = 4 + (vsqNum vsq).toNat * (2 + g) →
        ∃ t, exec (f vsq) s = .next t ∧ t.cmd = s.cmd ∧ LoadsBareAsdu s t ti g 0 (vsqNum vsq)) ∧
      (vsqSq vsq = 1 → 4 ≤ s.wlen.toNat → s.wlen.toNat ≤ s.par.bufsz → FailsDecode (f vsq) s s.cmd 6 1)

/-- The seven command and set-point types and end of initialization (R253 to R260): discrete objects, and NUM above 1
is accepted (R96, R182); SQ = 1 is IllegalSequenceMode at the VSQ byte (R189, R299). That the row's meaning takes the
type from the row and does not test bytes 0 and 1 of WIRE again is the model's choice (assumption log 9). -/
def Obligations.CommandTypesDecode : Prop :=
  ∀ (f : Byte → Instr) (ti : Byte) (g : Nat),
    (f, ti, g) ∈ ([(Instr.cScNa1, 45, 1), (Instr.cDcNa1, 46, 1), (Instr.cRcNa1, 47, 1), (Instr.cSeNa1, 48, 3)]
      ++ [(Instr.cSeNb1, 49, 3), (Instr.cSeNc1, 50, 5), (Instr.cBoNa1, 51, 4), (Instr.mEiNa1, 70, 1)] :
        List ((Byte → Instr) × Byte × Nat)) →
    ∀ (s : State) (vsq : Byte), OnSpecTables s → vsqNum vsq ≠ 0 →
      (vsqSq vsq = 0 → s.wlen.toNat = 4 + (vsqNum vsq).toNat * (2 + g) →
        ∃ t, exec (f vsq) s = .next t ∧ t.cmd = s.cmd ∧ LoadsBareAsdu s t ti g 0 (vsqNum vsq)) ∧
      (vsqSq vsq = 1 → 4 ≤ s.wlen.toNat → s.wlen.toNat ≤ s.par.bufsz → FailsDecode (f vsq) s s.cmd 6 1)

/-- `dec_asdu` (R184), its ten steps over the row of any registry that R6 allows: the forty types' own decodes, reached
through the decoder, are this one function of the bytes. -/
def Obligations.DecAsduIsR184 : Prop :=
  ∀ (p : Params) (a : Nat) (w : List Byte), p.valid = true →
    decAsdu p a w =
      if w.length < 4 then .error ⟨.truncatedInput, a + w.length⟩
      else if vsqNum (byteAt w 1) = 0 then .error ⟨.vsqNumberZero, a + 1⟩
      else
        match p.lookup (byteAt w 0) with
        | none => .error ⟨.unknownTypeId, a⟩
        | some row =>
          if vsqSq (byteAt w 1) = 1 ∧ row.seqLegal = false then .error ⟨.illegalSequenceMode, a + 1⟩
          else
            let need := listBytes (p.gsize row) (vsqSq (byteAt w 1)) (vsqNum (byteAt w 1)).toNat
            if w.length - 4 < need then .error ⟨.truncatedInput, a + w.length⟩
            else if need < w.length - 4 then .error ⟨.lengthMismatch, a + 4 + need⟩
            else .ok {
              ti := byteAt w 0
              sq := (byteAt w 1).extractLsb' 7 1
              num := (byteAt w 1).extractLsb' 0 7
              test := (byteAt w 2).extractLsb' 7 1
              neg := (byteAt w 2).extractLsb' 6 1
              cot := (byteAt w 2).extractLsb' 0 6
              ca := byteAt w 3
              objs := decObjs (p.gsize row) (vsqSq (byteAt w 1)) (vsqNum (byteAt w 1)) (w.drop 4) }

/-- Logical addresses of a sequence (R30, R188): after a successful DEC_ASDU with SQ = 1, ADDR[i] is
(ADDR[0] + i) mod 65536 for every object. -/
def Obligations.SequenceAddresses : Prop :=
  ∀ s t : State, exec .decAsdu s = .next t → t.status.st = 1 → vsqSq t.regs.vsq = 1 →
    ∀ i (h : i < Config.nslot), i < (vsqNum t.regs.vsq).toNat →
      t.slots[i].addr.toNat = (t.slots[0].addr.toNat + i) % 65536

/-! ## The four commands -/

/-- DEC_FRAME of a single character and of a fixed frame (R116, R271): the record, STATUS and CMD; nothing else
changes. -/
def Obligations.DecFrameDecodes : Prop :=
  ∀ s : State, s.wlen.toNat ≤ s.par.bufsz →
    (s.wlen = 1 → s.byte 0 = 0xE5 →
      exec .decFrame s = .next { s with
        cmd := 0
        regs := { Regs.zero with kind := 1, sc := 0 }
        status := { st := 1, err := 0, cserr := 0, errpos := 0 } }) ∧
    (s.wlen = 1 → s.byte 0 = 0xA2 →
      exec .decFrame s = .next { s with
        cmd := 0
        regs := { Regs.zero with kind := 1, sc := 1 }
        status := { st := 1, err := 0, cserr := 0, errpos := 0 } }) ∧
    (s.wlen = 5 → s.byte 0 = 0x10 → s.byte 4 = 0x16 → (s.cfg.csmode = 2 → s.cserrAt (s.byte 3) 1 2 = 0) →
      exec .decFrame s = .next { s with
        cmd := 0
        regs := { Regs.zero with kind := 2, ctrl := s.byte 1, laddr := s.byte 2, cs := s.byte 3 }
        status := { st := 1, err := 0, cserr := s.cserrAt (s.byte 3) 1 2, errpos := 0 } })

/-- DEC_ASDU of a bare ASDU of any known type, of the size its header implies (R184, R273). -/
def Obligations.DecAsduDecodes : Prop :=
  ∀ (s : State) (row : Row), s.par.valid = true → s.par.lookup (s.byte 0) = some row → vsqNum (s.byte 1) ≠ 0 →
    (vsqSq (s.byte 1) = 1 → row.seqLegal = true) →
    s.wlen.toNat = 4 + listBytes (s.par.gsize row) (vsqSq (s.byte 1)) (vsqNum (s.byte 1)).toNat →
    ∃ t, exec .decAsdu s = .next t ∧ t.cmd = 2 ∧
      LoadsBareAsdu s t (s.byte 0) (s.par.gsize row) (vsqSq (s.byte 1)) (vsqNum (s.byte 1))

/-- ENC_FRAME of a single character, of a fixed frame and of a variable frame with no ASDU (R121, R123, R272): the
bytes of the frame from offset 0, WLEN, STATUS and CMD; every other byte of WIRE, REC, the object store and CFG
unchanged. WIRE is in its canonical form. -/
def Obligations.EncFrameEncodes : Prop :=
  ∀ s : State, s.par.valid = true → Memory.wf s.par.bufsz s.wire = true →
    (s.regs.kind = 1 →
      ∃ t, exec .encFrame s = .next t ∧ KeepsRecordSide s t ∧ t.cmd = 1 ∧ t.wlen = 1 ∧
        t.byte 0 = (if s.regs.sc = 0 then 0xE5 else 0xA2) ∧ (∀ k, 1 ≤ k → t.byte k = s.byte k) ∧
        t.status = { st := 1, err := 0, cserr := 0, errpos := 0 }) ∧
    (s.regs.kind = 2 →
      (s.cfg.csgen = 0 → s.cfg.csmode = 2 → s.regs.cs = s.regs.ctrl + s.regs.laddr) →
      ∃ t, exec .encFrame s = .next t ∧ KeepsRecordSide s t ∧ t.cmd = 1 ∧ t.wlen = 5 ∧
        t.byte 0 = 0x10 ∧ t.byte 1 = s.regs.ctrl ∧ t.byte 2 = s.regs.laddr ∧
        t.byte 3 = (if s.cfg.csgen = 1 then s.regs.ctrl + s.regs.laddr else s.regs.cs) ∧ t.byte 4 = 0x16 ∧
        (∀ k, 5 ≤ k → t.byte k = s.byte k) ∧
        t.status =
          { st := 1, err := 0, cserr := if s.cfg.csgen = 1 then 0 else t.cserrAt (t.byte 3) 1 2, errpos := 0 }) ∧
    (s.regs.kind = 3 → s.regs.hasasdu = 0 →
      (s.cfg.csgen = 0 → s.cfg.csmode = 2 → s.regs.cs = s.regs.ctrl + s.regs.laddr) →
      ∃ t, exec .encFrame s = .next t ∧ KeepsRecordSide s t ∧ t.cmd = 1 ∧ t.wlen = 8 ∧
        t.byte 0 = 0x68 ∧ t.byte 1 = 2 ∧ t.byte 2 = 2 ∧ t.byte 3 = 0x68 ∧ t.byte 4 = s.regs.ctrl ∧
        t.byte 5 = s.regs.laddr ∧
        t.byte 6 = (if s.cfg.csgen = 1 then s.regs.ctrl + s.regs.laddr else s.regs.cs) ∧ t.byte 7 = 0x16 ∧
        (∀ k, 8 ≤ k → t.byte k = s.byte k) ∧
        t.status = { st := 1, err := 0, cserr := if s.cfg.csgen = 1 then 0 else t.cserrAt (t.byte 6) 4 2, errpos := 0 })

/-- ENC_FRAME of a variable frame with an ASDU that fits its one-byte length (R121, R190, R272). -/
def Obligations.EncFrameEncodesAsdu : Prop :=
  ∀ (s : State) (row : Row) (L : Nat), s.par.valid = true → Memory.wf s.par.bufsz s.wire = true →
    s.regs.kind = 3 → s.regs.hasasdu = 1 → s.par.lookup s.regs.ti = some row → vsqNum s.regs.vsq ≠ 0 →
    (vsqSq s.regs.vsq = 1 → row.seqLegal = true) →
    L = 6 + listBytes (s.par.gsize row) (vsqSq s.regs.vsq) (vsqNum s.regs.vsq).toNat → L ≤ 255 →
    (s.cfg.csgen = 0 → s.cfg.csmode = 2 →
      ∀ p, encAsdu s.par s.regs s.slots = .ok p → s.regs.cs = cssum (s.regs.ctrl :: s.regs.laddr :: p)) →
    ∃ t, exec .encFrame s = .next t ∧ KeepsRecordSide s t ∧ t.cmd = 1 ∧ t.wlen.toNat = L + 6 ∧
      t.byte 0 = 0x68 ∧ (t.byte 1).toNat = L ∧ (t.byte 2).toNat = L ∧ t.byte 3 = 0x68 ∧
      t.byte 4 = s.regs.ctrl ∧ t.byte 5 = s.regs.laddr ∧
      AsduWritten s t 6 (s.par.gsize row) (vsqSq s.regs.vsq) (vsqNum s.regs.vsq).toNat ∧
      (t.byte (L + 4)).toNat = (if s.cfg.csgen = 1 then t.sumAt 4 L else s.regs.cs.toNat) ∧ t.byte (L + 5) = 0x16 ∧
      (∀ k, L + 6 ≤ k → t.byte k = s.byte k) ∧
      t.status =
        { st := 1, err := 0, cserr := if s.cfg.csgen = 1 then 0 else t.cserrAt (t.byte (L + 4)) 4 L, errpos := 0 }

/-- ENC_ASDU of an ASDU of any known type (R190, R274): the header and the objects in the slots from offset 0, WLEN its
size, whatever KIND is; every other byte of WIRE, REC, the object store and CFG unchanged. -/
def Obligations.EncAsduEncodes : Prop :=
  ∀ (s : State) (row : Row), s.par.valid = true → Memory.wf s.par.bufsz s.wire = true →
    s.par.lookup s.regs.ti = some row → vsqNum s.regs.vsq ≠ 0 → (vsqSq s.regs.vsq = 1 → row.seqLegal = true) →
    ∃ t, exec .encAsdu s = .next t ∧ KeepsRecordSide s t ∧ t.cmd = 3 ∧
      t.wlen.toNat = 4 + listBytes (s.par.gsize row) (vsqSq s.regs.vsq) (vsqNum s.regs.vsq).toNat ∧
      AsduWritten s t 0 (s.par.gsize row) (vsqSq s.regs.vsq) (vsqNum s.regs.vsq).toNat ∧
      (∀ k, t.wlen.toNat ≤ k → t.byte k = s.byte k) ∧
      t.status = { st := 1, err := 0, cserr := 0, errpos := 0 }

/-! ## Frames -/

/-- What every decoding instruction leaves unchanged when it goes on, whether it succeeds or fails (R32, R36, R37): the
parameters, every byte of WIRE, WLEN, CFG, the host steps to come, CMD but for the command's own OP, and every slot
from VSQ.NUM of the record it leaves up (all of them after a frame with no ASDU and after an error, where VSQ is 0). -/
def Obligations.DecodeFrame : Prop :=
  ∀ (i : Instr) (s t : State), Decodes i → exec i s = .next t →
    KeepsWireSide s t ∧ t.cmd = cmdAfter i s ∧
      ∀ j (h : j < Config.nslot), (vsqNum t.regs.vsq).toNat ≤ j → t.slots[j] = s.slots[j]

/-- What the two encodes leave unchanged when they go on (R32, R37, R65, R300): the parameters, REC, the object store,
CFG and the host steps to come; and, b being the bytes the codec produces, every byte of WIRE from offset b.length up;
with an error, every byte of WIRE. WIRE is in its canonical form. -/
def Obligations.EncodeFrame : Prop :=
  ∀ s t : State, Memory.wf s.par.bufsz s.wire = true →
    (exec .encFrame s = .next t →
      KeepsRecordSide s t ∧ t.cmd = 1 ∧
      (∀ b c, encFrame s.par s.cfg s.regs s.slots = .ok (b, c) → ∀ k, b.length ≤ k → t.byte k = s.byte k) ∧
      (∀ e, encFrame s.par s.cfg s.regs s.slots = .error e → ∀ k, t.byte k = s.byte k)) ∧
    (exec .encAsdu s = .next t →
      KeepsRecordSide s t ∧ t.cmd = 3 ∧
      (∀ b, encAsdu s.par s.regs s.slots = .ok b → ∀ k, b.length ≤ k → t.byte k = s.byte k) ∧
      (∀ e, encAsdu s.par s.regs s.slots = .error e → ∀ k, t.byte k = s.byte k))

/-! ## Errors -/

/-- The state an error leaves (R300): after a failed decode every scalar register is 0, the object store, WIRE, WLEN
and CFG are unchanged and `view` is NoFrame; after a failed encode WLEN is 0 and WIRE, REC, the object store and CFG
are unchanged; ERR is the code of one of the eight error kinds (R290), CSERR is 1 exactly with ChecksumMismatch, and
ERRPOS of an encode is 0. -/
def Obligations.ErrorState : Prop :=
  ∀ (i : Instr) (s t : State), exec i s = .next t → t.status.st = 2 →
    (1 ≤ t.status.err.toNat ∧ t.status.err.toNat ≤ 8 ∧ (t.status.cserr = 1 ↔ t.status.err = 8)) ∧
    (Decodes i →
      t.regs = { kind := 0, sc := 0, ctrl := 0, laddr := 0, len := 0, cs := 0, hasasdu := 0, ti := 0, vsq := 0,
                 cotb := 0, ca := 0 } ∧
      t.par = s.par ∧ t.slots = s.slots ∧ t.wire = s.wire ∧ t.wlen = s.wlen ∧ t.cfg = s.cfg ∧
      view t.par t.regs t.slots = some (.frame .noFrame)) ∧
    (¬ Decodes i →
      t.par = s.par ∧ t.wire = s.wire ∧ t.wlen = 0 ∧ t.regs = s.regs ∧ t.slots = s.slots ∧ t.cfg = s.cfg ∧
        t.status.errpos = 0)

/-- STATUS (R278, R291): every operation ends with ST = 1 or ST = 2; with ST = 1, ERR and ERRPOS are 0, and CSERR is 0
for a single character and for the ASDU commands; with ST = 2, ERR is a code of R290, CSERR is 1 exactly with
ChecksumMismatch, and ERRPOS is at most WLEN after a decode and 0 after an encode. No host access but RESET writes
STATUS. -/
def Obligations.StatusRules : Prop :=
  (∀ (i : Instr) (s t : State), exec i s = .next t →
    (t.status.st = 1 ∨ t.status.st = 2) ∧
    (t.status.st = 1 → t.status.err = 0 ∧ t.status.errpos = 0 ∧
      ((Decodes i ∧ t.regs.kind = 1) ∨ (i = .encFrame ∧ s.regs.kind = 1) ∨ i = .encAsdu ∨ i.level = .asdu ∨
        i = .decAsdu → t.status.cserr = 0)) ∧
    (t.status.st = 2 →
      1 ≤ t.status.err.toNat ∧ t.status.err.toNat ≤ 8 ∧ (t.status.cserr = 1 ↔ t.status.err = 8)) ∧
    (Decodes i → t.status.errpos.toNat ≤ s.wlen.toNat) ∧ (¬ Decodes i → t.status.errpos = 0)) ∧
  ∀ (a : Access) (s : State), (∀ w l, a ≠ .reset w l) → (applyAccess a s).status = s.status

/-- UnknownFrameStart, code 1 (R292): a first byte that is none of the four, position 0; a wrong second start byte of a
variable frame, position 3; an encode of a record that is no link frame. -/
def Obligations.UnknownFrameStart : Prop :=
  (∀ s : State, 1 ≤ s.wlen.toNat → s.wlen.toNat ≤ s.par.bufsz →
    s.byte 0 ≠ 0xE5 → s.byte 0 ≠ 0xA2 → s.byte 0 ≠ 0x10 → s.byte 0 ≠ 0x68 → FailsDecode .decFrame s 0 1 0) ∧
  (∀ s : State, 4 ≤ s.wlen.toNat → s.wlen.toNat ≤ s.par.bufsz → s.byte 0 = 0x68 → 2 ≤ (s.byte 1).toNat →
    s.byte 2 = s.byte 1 → s.byte 3 ≠ 0x68 → FailsDecode .decFrame s 0 1 3) ∧
  (∀ s : State, s.regs.kind = 0 ∨ s.regs.kind = 4 ∨ s.regs.kind = 5 ∨ s.regs.kind = 6 ∨ s.regs.kind = 7 →
    FailsEncode .encFrame s 1 1)

/-- LengthMismatch at the link level, code 2 (R293 a, b, c, e): the two L bytes differ; L < 2; bytes beyond the end of a
single character, of a fixed and of a variable frame; an encode of an ASDU longer than 253 bytes. -/
def Obligations.FrameLengthMismatch : Prop :=
  (∀ s : State, s.wlen.toNat ≤ s.par.bufsz →
    (3 ≤ s.wlen.toNat → s.byte 0 = 0x68 → 2 ≤ (s.byte 1).toNat → s.byte 2 ≠ s.byte 1 →
      FailsDecode .decFrame s 0 2 2) ∧
    (2 ≤ s.wlen.toNat → s.byte 0 = 0x68 → (s.byte 1).toNat < 2 → FailsDecode .decFrame s 0 2 1) ∧
    (2 ≤ s.wlen.toNat → s.byte 0 = 0xE5 ∨ s.byte 0 = 0xA2 → FailsDecode .decFrame s 0 2 1) ∧
    (6 ≤ s.wlen.toNat → s.byte 0 = 0x10 → s.byte 4 = 0x16 → FailsDecode .decFrame s 0 2 5) ∧
    (s.byte 0 = 0x68 → 2 ≤ (s.byte 1).toNat → s.byte 2 = s.byte 1 → s.byte 3 = 0x68 →
      (s.byte 1).toNat + 6 < s.wlen.toNat → s.byte ((s.byte 1).toNat + 5) = 0x16 →
      FailsDecode .decFrame s 0 2 ((s.byte 1).toNat + 6))) ∧
  (∀ (s : State) (b : List Byte), s.regs.kind = 3 → s.regs.hasasdu = 1 → encAsdu s.par s.regs s.slots = .ok b →
    253 < b.length → FailsEncode .encFrame s 1 2)

/-- The sizes of an ASDU (R117, R184 steps 1, 7, 8; R291; R293 d; R294). On DEC_ASDU: fewer than 4 bytes, or fewer than
the header implies, is TruncatedInput at the end; more is LengthMismatch at the first excess byte. Inside a variable
frame of length L on DEC_FRAME, unless FATAL finds a wrong checksum first: a payload of 1 to 3 bytes (L = 3 to 5), or
of fewer than the header implies, is TruncatedInput at L + 4, where the payload ends; more is LengthMismatch at 6 plus
the ASDU's size. -/
def Obligations.AsduSizeErrors : Prop :=
  (∀ s : State, s.par.valid = true → s.wlen.toNat ≤ s.par.bufsz →
    (s.wlen.toNat < 4 → FailsDecode .decAsdu s 2 3 s.wlen.toNat) ∧
    ∀ (row : Row) (size : Nat), 4 ≤ s.wlen.toNat → s.par.lookup (s.byte 0) = some row → vsqNum (s.byte 1) ≠ 0 →
      (vsqSq (s.byte 1) = 1 → row.seqLegal = true) →
      size = 4 + listBytes (s.par.gsize row) (vsqSq (s.byte 1)) (vsqNum (s.byte 1)).toNat →
      (s.wlen.toNat < size → FailsDecode .decAsdu s 2 3 s.wlen.toNat) ∧
      (size < s.wlen.toNat → FailsDecode .decAsdu s 2 2 size)) ∧
  ∀ (s : State) (L : Nat), s.par.valid = true → (s.byte 1).toNat = L → s.wlen.toNat = L + 6 → s.byte 0 = 0x68 →
    s.byte 2 = s.byte 1 → s.byte 3 = 0x68 → s.byte (L + 5) = 0x16 →
    (s.cfg.csmode = 2 → s.cserrAt (s.byte (L + 4)) 4 L = 0) →
    (3 ≤ L → L ≤ 5 → FailsDecode .decFrame s 0 3 (L + 4)) ∧
    ∀ (row : Row) (size : Nat), 6 ≤ L → s.par.lookup (s.byte 6) = some row → vsqNum (s.byte 7) ≠ 0 →
      (vsqSq (s.byte 7) = 1 → row.seqLegal = true) →
      size = 4 + listBytes (s.par.gsize row) (vsqSq (s.byte 7)) (vsqNum (s.byte 7)).toNat →
      (L - 2 < size → FailsDecode .decFrame s 0 3 (L + 4)) ∧
      (size < L - 2 → FailsDecode .decFrame s 0 2 (6 + size))

/-- TruncatedInput at the link level, code 3 (R294, R297 orders 1, 3, 5, 7, 9): position WLEN. It is never raised by an
encode. -/
def Obligations.FrameTruncated : Prop :=
  (∀ s : State, s.wlen.toNat ≤ s.par.bufsz →
    (s.wlen = 0 → FailsDecode .decFrame s 0 3 0) ∧
    (1 ≤ s.wlen.toNat → s.wlen.toNat < 5 → s.byte 0 = 0x10 → FailsDecode .decFrame s 0 3 s.wlen.toNat) ∧
    (s.wlen = 1 → s.byte 0 = 0x68 → FailsDecode .decFrame s 0 3 1) ∧
    (s.wlen = 2 → s.byte 0 = 0x68 → 2 ≤ (s.byte 1).toNat → FailsDecode .decFrame s 0 3 2) ∧
    (s.wlen = 3 → s.byte 0 = 0x68 → 2 ≤ (s.byte 1).toNat → s.byte 2 = s.byte 1 → FailsDecode .decFrame s 0 3 3) ∧
    (4 ≤ s.wlen.toNat → s.byte 0 = 0x68 → 2 ≤ (s.byte 1).toNat → s.byte 2 = s.byte 1 → s.byte 3 = 0x68 →
      s.wlen.toNat < (s.byte 1).toNat + 6 → FailsDecode .decFrame s 0 3 s.wlen.toNat)) ∧
  ∀ (i : Instr) (s t : State), ¬ Decodes i → exec i s = .next t → t.status.err ≠ 3

/-- UnterminatedFrame, code 4 (R295): the end byte is tested as soon as enough bytes are present, before the
excess-length test, the checksum and the payload. It is never raised by an encode and never for a single character. -/
def Obligations.UnterminatedFrame : Prop :=
  (∀ s : State, s.wlen.toNat ≤ s.par.bufsz →
    (5 ≤ s.wlen.toNat → s.byte 0 = 0x10 → s.byte 4 ≠ 0x16 → FailsDecode .decFrame s 0 4 4) ∧
    (s.byte 0 = 0x68 → 2 ≤ (s.byte 1).toNat → s.byte 2 = s.byte 1 → s.byte 3 = 0x68 →
      (s.byte 1).toNat + 6 ≤ s.wlen.toNat → s.byte ((s.byte 1).toNat + 5) ≠ 0x16 →
      FailsDecode .decFrame s 0 4 ((s.byte 1).toNat + 5))) ∧
  (∀ (i : Instr) (s t : State), ¬ Decodes i → exec i s = .next t → t.status.err ≠ 4) ∧
  ∀ s t : State, exec .decFrame s = .next t → s.byte 0 = 0xE5 ∨ s.byte 0 = 0xA2 → t.status.err ≠ 4

/-- UnknownTypeId, code 5 (R296, R298): all 216 values, by DEC_ASDU at position 0, inside a variable frame at position 6
unless FATAL finds a wrong checksum first, and by the two encodes. -/
def Obligations.UnknownTypeId : Prop :=
  (∀ s : State, 4 ≤ s.wlen.toNat → s.wlen.toNat ≤ s.par.bufsz → vsqNum (s.byte 1) ≠ 0 →
    s.par.lookup (s.byte 0) = none → FailsDecode .decAsdu s 2 5 0) ∧
  (∀ (s : State) (L : Nat), (s.byte 1).toNat = L → 6 ≤ L → s.wlen.toNat = L + 6 → s.wlen.toNat ≤ s.par.bufsz →
    s.byte 0 = 0x68 →
    s.byte 2 = s.byte 1 → s.byte 3 = 0x68 → s.byte (L + 5) = 0x16 →
    (s.cfg.csmode = 2 → s.cserrAt (s.byte (L + 4)) 4 L = 0) → vsqNum (s.byte 7) ≠ 0 →
    s.par.lookup (s.byte 6) = none → FailsDecode .decFrame s 0 5 6) ∧
  (∀ s : State, vsqNum s.regs.vsq ≠ 0 → s.par.lookup s.regs.ti = none →
    FailsEncode .encAsdu s 3 5 ∧ (s.regs.kind = 3 → s.regs.hasasdu = 1 → FailsEncode .encFrame s 1 5)) ∧
  ∀ (p : Params) (ti : Byte), p.valid = true → (p.lookup ti = none ↔
    ¬ (1 ≤ ti.toNat ∧ ti.toNat ≤ 21 ∨ 30 ≤ ti.toNat ∧ ti.toNat ≤ 40 ∨ 45 ≤ ti.toNat ∧ ti.toNat ≤ 51 ∨ ti.toNat = 70))

/-- IllegalSequenceMode, code 6 (R299): decode and encode alike when VSQ bit 7 is 1 and the type is sequence-illegal;
position 1 on DEC_ASDU, 7 inside a variable frame unless FATAL finds a wrong checksum first. -/
def Obligations.IllegalSequenceMode : Prop :=
  (∀ (s : State) (row : Row), 4 ≤ s.wlen.toNat → s.wlen.toNat ≤ s.par.bufsz → vsqNum (s.byte 1) ≠ 0 →
    s.par.lookup (s.byte 0) = some row → row.seqLegal = false → vsqSq (s.byte 1) = 1 → FailsDecode .decAsdu s 2 6 1) ∧
  (∀ (s : State) (row : Row) (L : Nat), (s.byte 1).toNat = L → 6 ≤ L → s.wlen.toNat = L + 6 →
    s.wlen.toNat ≤ s.par.bufsz → s.byte 0 = 0x68 →
    s.byte 2 = s.byte 1 → s.byte 3 = 0x68 → s.byte (L + 5) = 0x16 →
    (s.cfg.csmode = 2 → s.cserrAt (s.byte (L + 4)) 4 L = 0) → vsqNum (s.byte 7) ≠ 0 →
    s.par.lookup (s.byte 6) = some row → row.seqLegal = false → vsqSq (s.byte 7) = 1 → FailsDecode .decFrame s 0 6 7) ∧
  ∀ (s : State) (row : Row), vsqNum s.regs.vsq ≠ 0 → s.par.lookup s.regs.ti = some row → row.seqLegal = false →
    vsqSq s.regs.vsq = 1 →
    FailsEncode .encAsdu s 3 6 ∧ (s.regs.kind = 3 → s.regs.hasasdu = 1 → FailsEncode .encFrame s 1 6)

/-- VSQNumberZero, code 7 (R182, R301): decode and encode when VSQ bits 6:0 are 0, whatever bit 7 and the type
identifier are; position 1 on DEC_ASDU, 7 inside a variable frame unless FATAL finds a wrong checksum first. -/
def Obligations.VsqNumberZero : Prop :=
  (∀ s : State, 4 ≤ s.wlen.toNat → s.wlen.toNat ≤ s.par.bufsz → vsqNum (s.byte 1) = 0 →
    FailsDecode .decAsdu s 2 7 1) ∧
  (∀ (s : State) (L : Nat), (s.byte 1).toNat = L → 6 ≤ L → s.wlen.toNat = L + 6 → s.wlen.toNat ≤ s.par.bufsz →
    s.byte 0 = 0x68 →
    s.byte 2 = s.byte 1 → s.byte 3 = 0x68 → s.byte (L + 5) = 0x16 →
    (s.cfg.csmode = 2 → s.cserrAt (s.byte (L + 4)) 4 L = 0) → vsqNum (s.byte 7) = 0 →
    FailsDecode .decFrame s 0 7 7) ∧
  ∀ s : State, vsqNum s.regs.vsq = 0 →
    FailsEncode .encAsdu s 3 7 ∧ (s.regs.kind = 3 → s.regs.hasasdu = 1 → FailsEncode .encFrame s 1 7)

/-- ChecksumMismatch, code 8 (R302): only under FATAL, by DEC_FRAME at the checksum byte of a fixed or variable frame,
and by ENC_FRAME with CSGEN = 0 when REC.CS differs from the computed sum; under FLAG and IGNORE the code never occurs.
-/
def Obligations.ChecksumMismatch : Prop :=
  (∀ s : State, s.cfg.csmode = 2 → s.wlen.toNat ≤ s.par.bufsz →
    (s.wlen = 5 → s.byte 0 = 0x10 → s.byte 4 = 0x16 → (s.byte 3).toNat ≠ s.sumAt 1 2 → FailsDecode .decFrame s 0 8 3) ∧
    (∀ L, (s.byte 1).toNat = L → 2 ≤ L → s.wlen.toNat = L + 6 → s.byte 0 = 0x68 → s.byte 2 = s.byte 1 →
      s.byte 3 = 0x68 → s.byte (L + 5) = 0x16 → (s.byte (L + 4)).toNat ≠ s.sumAt 4 L →
      FailsDecode .decFrame s 0 8 (L + 4)) ∧
    (s.cfg.csgen = 0 →
      (s.regs.kind = 2 → s.regs.cs ≠ s.regs.ctrl + s.regs.laddr → FailsEncode .encFrame s 1 8) ∧
      (s.regs.kind = 3 → s.regs.hasasdu = 0 → s.regs.cs ≠ s.regs.ctrl + s.regs.laddr →
        FailsEncode .encFrame s 1 8) ∧
      (∀ p, s.regs.kind = 3 → s.regs.hasasdu = 1 → encAsdu s.par s.regs s.slots = .ok p → p.length ≤ 253 →
        s.regs.cs ≠ cssum (s.regs.ctrl :: s.regs.laddr :: p) → FailsEncode .encFrame s 1 8))) ∧
  ∀ (i : Instr) (s t : State), s.cfg.csmode ≠ 2 → exec i s = .next t → t.status.err ≠ 8

/-- What is never an error (R309): the content of a field. The bytes of an ASDU after its first two decide no error,
neither its kind nor its position; outside FATAL mode the control byte, the link address, the checksum byte and all the
payload after its first two bytes decide no error of a frame's decode; and an encode's errors depend on KIND, HASASDU,
TI and VSQ alone. -/
def Obligations.ContentIsNeverAnError : Prop :=
  (∀ (p : Params) (a : Nat) (x y : Byte) (b c : List Byte) (e : CodecErr), b.length = c.length →
    decAsdu p a (x :: y :: b) = .error e → decAsdu p a (x :: y :: c) = .error e) ∧
  (∀ (p : Params) (m : BitVec 2) (w w' : List Byte) (e : CodecErr), m ≠ 2 → w'.length = w.length →
    byteAt w' 0 = byteAt w 0 →
    (byteAt w 0 = 0x10 → byteAt w' 4 = byteAt w 4) →
    (byteAt w 0 = 0x68 →
      byteAt w' 1 = byteAt w 1 ∧ byteAt w' 2 = byteAt w 2 ∧ byteAt w' 3 = byteAt w 3 ∧
        byteAt w' ((byteAt w 1).toNat + 5) = byteAt w ((byteAt w 1).toNat + 5) ∧
        (6 ≤ (byteAt w 1).toNat → byteAt w' 6 = byteAt w 6 ∧ byteAt w' 7 = byteAt w 7)) →
    decFrame p m w = .error e → decFrame p m w' = .error e) ∧
  ∀ (p : Params) (cfg : Cfg) (r r' : Regs) (v v' : Vector Slot Config.nslot) (e : CodecErr), r'.kind = r.kind →
    r'.hasasdu = r.hasasdu → r'.ti = r.ti → r'.vsq = r.vsq →
    (encAsdu p r v = .error e → encAsdu p r' v' = .error e) ∧
      (cfg.csmode ≠ 2 → encFrame p cfg r v = .error e → encFrame p cfg r' v' = .error e)

/-! ## Fields -/

/-- The control byte (R115): `ctl` and `ctlbyte` are inverse to each other, and a packed byte is the weighted sum of the
fields. -/
def Obligations.ControlByteInverse : Prop :=
  (∀ c : Byte, ctlbyte (ctl c) = c) ∧ (∀ r : Control, ctl (ctlbyte r) = r) ∧
    (∀ r : Control, (ctlbyte r).toNat =
      128 * r.res.toNat + 64 * r.prm.toNat + 32 * r.fcb.toNat + 16 * r.fcv.toNat + r.fc.toNat)

/-- The header (R181): unpack takes the fields from the four bytes, pack is its inverse, 128 * sq + num and
128 * test + 64 * neg + cot, and the registers TI, VSQ, COTB and CA hold the four bytes themselves. -/
def Obligations.HeaderFields : Prop :=
  (∀ (p : Params) (a : Nat) (w : List Byte) (d : Asdu), decAsdu p a w = .ok d →
    d.ti = byteAt w 0 ∧
      d.sq = (byteAt w 1).extractLsb' 7 1 ∧ d.num = (byteAt w 1).extractLsb' 0 7 ∧
      d.test = (byteAt w 2).extractLsb' 7 1 ∧ d.neg = (byteAt w 2).extractLsb' 6 1 ∧
      d.cot = (byteAt w 2).extractLsb' 0 6 ∧ d.ca = byteAt w 3 ∧
      ∀ r : Regs, (asduRegs r d).ti = byteAt w 0 ∧ (asduRegs r d).vsq = byteAt w 1 ∧ (asduRegs r d).cotb = byteAt w 2 ∧
        (asduRegs r d).ca = byteAt w 3) ∧
    (∀ v : Byte, mkVsq (vsqSq v) (vsqNum v) = v) ∧
    (∀ c : Byte, mkCotb (cotTest c) (cotNeg c) (cotCause c) = c) ∧
    (∀ (sq : Bit) (num : BitVec 7), (mkVsq sq num).toNat = 128 * sq.toNat + num.toNat) ∧
    ∀ (test neg : Bit) (cot : BitVec 6),
      (mkCotb test neg cot).toNat = 128 * test.toNat + 64 * neg.toNat + cot.toNat

/-- The time tags (R141, R142), unpacked from their bytes field by field and packed from fields that fit, whatever the
parameters; a field of CP56 that CP24 also has is in the same place. -/
def Obligations.TimeTagFields : Prop :=
  (∀ (p : Params) (k : Kind) (b0 b1 b2 b3 b4 b5 b6 : Byte) (b : List Byte) (get : Field → Option Nat),
    (k = .cp24 ∧ b = [b0, b1, b2]) ∨ (k = .cp56 ∧ b = [b0, b1, b2, b3, b4, b5, b6]) → get = unpackKind p k b →
    get .ms = some (b0.toNat + 256 * b1.toNat) ∧ get .iv = some (b2.toNat / 128) ∧ get .sub = some (b2.toNat / 64 % 2) ∧
      get .min = some (b2.toNat % 64) ∧
      (k = .cp56 →
        get .su = some (b3.toNat / 128) ∧ get .res1 = some (b3.toNat / 32 % 4) ∧ get .hour = some (b3.toNat % 32) ∧
        get .dow = some (b4.toNat / 32) ∧ get .day = some (b4.toNat % 32) ∧
        get .res2 = some (b5.toNat / 16) ∧ get .mon = some (b5.toNat % 16) ∧
        get .res3 = some (b6.toNat / 128) ∧ get .year = some (b6.toNat % 128))) ∧
  ∀ (p : Params) (r : Field → Nat),
    (r .ms < 65536 → r .iv < 2 → r .sub < 2 → r .min < 64 →
      ∃ bs, packKind p .cp24 r = some bs ∧
        bs.map BitVec.toNat = [r .ms % 256, r .ms / 256, 128 * r .iv + 64 * r .sub + r .min] ∧
        (r .su < 2 → r .res1 < 4 → r .hour < 32 → r .dow < 8 → r .day < 32 → r .res2 < 16 → r .mon < 16 → r .res3 < 2 →
          r .year < 128 →
          packKind p .cp56 r =
            some (bs ++
              [BitVec.ofNat 8 (128 * r .su + 32 * r .res1 + r .hour), BitVec.ofNat 8 (32 * r .dow + r .day),
               BitVec.ofNat 8 (16 * r .res2 + r .mon), BitVec.ofNat 8 (128 * r .res3 + r .year)])))

/-- The elements. (a) Where each field of the 20 element kinds lies, in the spec's LAYOUTS: for all bytes of an
element, the values of its fields, and no other field (R151 to R166, R211 to R214). For every LAYOUTS that R6 allows
and every kind, the time tags too (R140, R150): (b) every bit of an element belongs to exactly one field; (c) packing
what was unpacked gives the element's bytes back; (d) of a record whose fields fit their widths pack makes an element
of the kind's size, and unpacking it gives the fields back; (e) pack refuses a record with a value wider than its
field, and no other. -/
def Obligations.ElementRoundTrip : Prop :=
  (∀ (p : Params) (b0 b1 b2 b3 b4 : Byte), p.layouts = specLayouts →
    ElementHas p .siq [b0] [(.iv, b0.toNat / 128), (.nt, b0.toNat / 64 % 2), (.sb, b0.toNat / 32 % 2),
      (.bl, b0.toNat / 16 % 2), (.res, b0.toNat / 2 % 8), (.spi, b0.toNat % 2)] ∧
    ElementHas p .diq [b0] [(.iv, b0.toNat / 128), (.nt, b0.toNat / 64 % 2), (.sb, b0.toNat / 32 % 2),
      (.bl, b0.toNat / 16 % 2), (.res, b0.toNat / 4 % 4), (.dpi, b0.toNat % 4)] ∧
    ElementHas p .qds [b0] [(.iv, b0.toNat / 128), (.nt, b0.toNat / 64 % 2), (.sb, b0.toNat / 32 % 2),
      (.bl, b0.toNat / 16 % 2), (.res, b0.toNat / 2 % 8), (.ov, b0.toNat % 2)] ∧
    ElementHas p .vti [b0] [(.t, b0.toNat / 128), (.val, b0.toNat % 128)] ∧
    ElementHas p .bsi [b0, b1, b2, b3] [(.bits, b0.toNat + 256 * b1.toNat + 65536 * b2.toNat + 16777216 * b3.toNat)] ∧
    ElementHas p .nva [b0, b1] [(.raw, b0.toNat + 256 * b1.toNat)] ∧
    ElementHas p .sva [b0, b1] [(.raw, b0.toNat + 256 * b1.toNat)] ∧
    ElementHas p .r32 [b0, b1, b2, b3] [(.raw, b0.toNat + 256 * b1.toNat + 65536 * b2.toNat + 16777216 * b3.toNat)] ∧
    ElementHas p .bcr [b0, b1, b2, b3, b4]
      [(.cnt, b0.toNat + 256 * b1.toNat + 65536 * b2.toNat + 16777216 * b3.toNat), (.iv, b4.toNat / 128),
        (.ca, b4.toNat / 64 % 2), (.cy, b4.toNat / 32 % 2), (.sqn, b4.toNat % 32)] ∧
    ElementHas p .sep [b0] [(.iv, b0.toNat / 128), (.nt, b0.toNat / 64 % 2), (.sb, b0.toNat / 32 % 2),
      (.bl, b0.toNat / 16 % 2), (.ei, b0.toNat / 8 % 2), (.res, b0.toNat / 4 % 2), (.es, b0.toNat % 4)] ∧
    ElementHas p .cp16 [b0, b1] [(.ms, b0.toNat + 256 * b1.toNat)] ∧
    ElementHas p .spe [b0] [(.res, b0.toNat / 64), (.srd, b0.toNat / 32 % 2), (.sie, b0.toNat / 16 % 2),
      (.sl3, b0.toNat / 8 % 2), (.sl2, b0.toNat / 4 % 2), (.sl1, b0.toNat / 2 % 2), (.gs, b0.toNat % 2)] ∧
    ElementHas p .qdp [b0] [(.iv, b0.toNat / 128), (.nt, b0.toNat / 64 % 2), (.sb, b0.toNat / 32 % 2),
      (.bl, b0.toNat / 16 % 2), (.ei, b0.toNat / 8 % 2), (.res, b0.toNat % 8)] ∧
    ElementHas p .oci [b0] [(.res, b0.toNat / 16), (.cl3, b0.toNat / 8 % 2), (.cl2, b0.toNat / 4 % 2),
      (.cl1, b0.toNat / 2 % 2), (.gc, b0.toNat % 2)] ∧
    ElementHas p .scd [b0, b1, b2, b3] [(.st, b0.toNat + 256 * b1.toNat), (.cd, b2.toNat + 256 * b3.toNat)] ∧
    ElementHas p .coi [b0] [(.lpc, b0.toNat / 128), (.cause, b0.toNat % 128)] ∧
    ElementHas p .sco [b0] [(.se, b0.toNat / 128), (.qu, b0.toNat / 4 % 32), (.res, b0.toNat / 2 % 2),
      (.scs, b0.toNat % 2)] ∧
    ElementHas p .dco [b0] [(.se, b0.toNat / 128), (.qu, b0.toNat / 4 % 32), (.dcs, b0.toNat % 4)] ∧
    ElementHas p .rco [b0] [(.se, b0.toNat / 128), (.qu, b0.toNat / 4 % 32), (.rcs, b0.toNat % 4)] ∧
    ElementHas p .qos [b0] [(.se, b0.toNat / 128), (.ql, b0.toNat % 128)]) ∧
  ∀ (p : Params) (k : Kind), p.valid = true →
    (∀ b, b < 8 * p.kindSize k →
      ((p.layout k).filter fun e => decide (e.2.lo ≤ b ∧ b < e.2.lo + e.2.width)).length = 1) ∧
    (∀ bs : List Byte, bs.length = p.kindSize k → packKind p k (fun f => (unpackKind p k bs f).getD 0) = some bs) ∧
    ∀ r : Field → Nat,
      ((∀ f b, p.fieldOf k f = some b → r f < 2 ^ b.width) →
        ∃ bs, packKind p k r = some bs ∧ bs.length = p.kindSize k ∧
          ∀ f b, p.fieldOf k f = some b → unpackKind p k bs f = some (r f)) ∧
      ((∃ f b, p.fieldOf k f = some b ∧ 2 ^ b.width ≤ r f) → packKind p k r = none)

/-- The extractor view (R31, R167, R276, U7), for every LAYOUTS and REGISTRY that R6 allows: a read of FLD(i, K.f) is
the field of the bytes the kind occupies in slot i's element group, at the sum of the sizes of the kinds before it, in
a slot in use or not; it is refused when the type is unknown, the kind is not in its group, the kind has no such field
or there is no such slot. -/
def Obligations.FieldViewReads : Prop :=
  (∀ (s : State) (i : Nat) (h : i < Config.nslot) (row : Row) (before after : List Kind) (k : Kind) (f : Field)
    (b : BitField), s.par.valid = true →
    s.par.lookup s.regs.ti = some row → row.group = before ++ k :: after → s.par.fieldOf k f = some b →
    hostRead (.fld i k f) s =
      some (unpackField
        (slice s.slots[i].eg.toList (s.par.groupSize before) (s.par.groupSize before + s.par.kindSize k)) b)) ∧
  ∀ (s : State) (i : Nat) (k : Kind) (f : Field),
    s.par.lookup s.regs.ti = none ∨ (∃ row, s.par.lookup s.regs.ti = some row ∧ k ∉ row.group) ∨
      s.par.fieldOf k f = none ∨ Config.nslot ≤ i →
    hostRead (.fld i k f) s = none

/-- A write through the extractor view (R31, R275): with a field that is in the group and a value that fits, the field
reads back as the value, every other field of the slot reads as before, every other bit of the 12 bytes of the slot's
group is as before, and nothing but that slot's group changes; otherwise nothing changes at all. -/
def Obligations.FieldViewWrites : Prop :=
  ∀ (s : State) (i : Nat) (k : Kind) (f : Field) (v : Nat), s.par.valid = true →
    (∀ p, s.par.fldPlace s.regs.ti k f = some p → i < Config.nslot → v < 2 ^ p.width →
      fldRead (applyAccess (.fld i k f v) s) i k f = some v ∧
      (∀ k' f', (k', f') ≠ (k, f) → fldRead (applyAccess (.fld i k f v) s) i k' f' = fldRead s i k' f') ∧
      (∀ (h : i < Config.nslot) m (hm : m < Config.gmax) q, q < 8 → ¬ (p.lo ≤ 8 * m + q ∧ 8 * m + q < p.lo + p.width) →
        (applyAccess (.fld i k f v) s).slots[i].eg[m].getLsbD q = s.slots[i].eg[m].getLsbD q) ∧
      (∀ j (h : j < Config.nslot), (applyAccess (.fld i k f v) s).slots[j].addr = s.slots[j].addr ∧
        (j ≠ i → (applyAccess (.fld i k f v) s).slots[j] = s.slots[j])) ∧
      { applyAccess (.fld i k f v) s with slots := s.slots } = s) ∧
    (s.par.fldPlace s.regs.ti k f = none ∨ Config.nslot ≤ i ∨
      (∃ p, s.par.fldPlace s.regs.ti k f = some p ∧ 2 ^ p.width ≤ v) → applyAccess (.fld i k f v) s = s)

/-- The normalized value's reading (R156): 0 at raw 0, exactly -1 at 8000, the greatest value 32767/32768 at 7FFF, and
every raw value in [-1, 1). -/
def Obligations.NormalizedValueRange : Prop :=
  nvaFraction 0 = 0 ∧ nvaFraction 0x8000 = -1 ∧ nvaFraction 0x7FFF = 32767 / 32768 ∧
    ∀ raw, raw < 65536 → -1 ≤ nvaFraction raw ∧ nvaFraction raw ≤ nvaFraction 0x7FFF ∧ nvaFraction raw < 1

/-! ## The registry -/

/-- The spec's registry (R220): `known`, GROUP, GSIZE, TIMETAG and SEQ_LEGAL of every type identifier, as the table's
columns give them; and with any BUFSZ from 1782 to 4095 the spec's tables meet all that R6 asks of the parameters. -/
def Obligations.RegistryColumns : Prop :=
  (∀ ti : Byte, specParams.known ti = true ↔
    1 ≤ ti.toNat ∧ ti.toNat ≤ 21 ∨ 30 ≤ ti.toNat ∧ ti.toNat ≤ 40 ∨ 45 ≤ ti.toNat ∧ ti.toNat ≤ 51 ∨ ti.toNat = 70) ∧
  (∀ ti : Byte, specParams.seqLegal ti = true ↔ ti.toNat ∈ [1, 3, 5, 7, 9, 11, 13, 15, 20, 21]) ∧
  (∀ ti : Byte, specParams.timeTagOf ti = some .cp24 ↔ ti.toNat ∈ [2, 4, 6, 8, 10, 12, 14, 16, 17, 18, 19]) ∧
  (∀ ti : Byte, specParams.timeTagOf ti = some .cp56 ↔ 30 ≤ ti.toNat ∧ ti.toNat ≤ 40) ∧
  (∀ ti : Byte, specParams.groupOf ti = assoc ti.toNat (specRegistry.map fun r => (r.ti.toNat, r.group))) ∧
  specRegistry.map (fun r => (r.ti.toNat, r.group)) =
    [(1, [.siq]), (2, [.siq, .cp24]), (3, [.diq]), (4, [.diq, .cp24]), (5, [.vti, .qds]), (6, [.vti, .qds, .cp24]),
     (7, [.bsi, .qds]), (8, [.bsi, .qds, .cp24]), (9, [.nva, .qds]), (10, [.nva, .qds, .cp24]), (11, [.sva, .qds]),
     (12, [.sva, .qds, .cp24]), (13, [.r32, .qds]), (14, [.r32, .qds, .cp24]), (15, [.bcr]), (16, [.bcr, .cp24]),
     (17, [.sep, .cp16, .cp24]), (18, [.spe, .qdp, .cp16, .cp24]), (19, [.oci, .qdp, .cp16, .cp24]), (20, [.scd, .qds]),
     (21, [.nva]), (30, [.siq, .cp56]), (31, [.diq, .cp56]), (32, [.vti, .qds, .cp56]), (33, [.bsi, .qds, .cp56]),
     (34, [.nva, .qds, .cp56]), (35, [.sva, .qds, .cp56]), (36, [.r32, .qds, .cp56]), (37, [.bcr, .cp56]),
     (38, [.sep, .cp16, .cp56]), (39, [.spe, .qdp, .cp16, .cp56]), (40, [.oci, .qdp, .cp16, .cp56]), (45, [.sco]),
     (46, [.dco]), (47, [.rco]), (48, [.nva, .qos]), (49, [.sva, .qos]), (50, [.r32, .qos]), (51, [.bsi]),
     (70, [.coi])] ∧
  specRegistry.map (fun r => (r.ti.toNat, specParams.gsize r)) =
    [(1, 1), (2, 4), (3, 1), (4, 4), (5, 2), (6, 5), (7, 5), (8, 8), (9, 3), (10, 6)]
    ++ [(11, 3), (12, 6), (13, 5), (14, 8), (15, 5), (16, 8), (17, 6), (18, 7), (19, 7), (20, 5)]
    ++ [(21, 2), (30, 8), (31, 8), (32, 9), (33, 12), (34, 10), (35, 10), (36, 12), (37, 12), (38, 10)]
    ++ [(39, 11), (40, 11), (45, 1), (46, 1), (47, 1), (48, 3), (49, 3), (50, 5), (51, 4), (70, 1)] ∧
  ∀ n, 1782 ≤ n → n ≤ 4095 → (specTables n).valid = true

/-- The size formula (R99): what `enc_asdu` produces has 4 + objs_size bytes, at most 1782. -/
def Obligations.AsduSizeFormula : Prop :=
  ∀ (p : Params) (r : Regs) (v : Vector Slot Config.nslot) (b : List Byte), p.valid = true → encAsdu p r v = .ok b →
    ∃ g, p.gsizeOf r.ti = some g ∧ b.length = 4 + listBytes g (vsqSq r.vsq) (vsqNum r.vsq).toNat ∧ b.length ≤ 1782

/-! ## Round trips and composition -/

/-- Round trip at the ASDU level (R192), under any parameters that R6 allows. (a) What `dec_asdu` accepts, once loaded,
`enc_asdu` gives back byte for byte. (b) What `enc_asdu` produces, `dec_asdu` accepts, and the registers it then leaves
have the same `view_asdu`. -/
def Obligations.AsduRoundTrip : Prop :=
  ∀ p : Params, p.valid = true →
  (∀ (at_ : Nat) (w : List Byte) (d : Asdu) (r : Regs) (v : Vector Slot Config.nslot), decAsdu p at_ w = .ok d →
    encAsdu p (asduRegs r d) (storeObjs v d) = .ok w) ∧
  ∀ (r r' : Regs) (v v' : Vector Slot Config.nslot) (b : List Byte), encAsdu p r v = .ok b →
    ∃ d, decAsdu p 0 b = .ok d ∧ viewAsdu p r v = some d ∧ viewAsdu p (asduRegs r' d) (storeObjs v' d) = viewAsdu p r v

/-- Round trip at the link level (R124), under any parameters that R6 allows. (a) What `dec_frame` accepts, once
loaded, `enc_frame` with CSGEN = 0 and the same CSMODE gives back byte for byte with the same CSERR. (b) What
`enc_frame` produces, `dec_frame` under the same CFG accepts, and the registers it then leaves have the same `view`,
but for the checksum field being the computed sum when CSGEN = 1. -/
def Obligations.FrameRoundTrip : Prop :=
  ∀ p : Params, p.valid = true →
  (∀ (mode : BitVec 2) (w : List Byte) (x : FrameResult) (v : Vector Slot Config.nslot), decFrame p mode w = .ok x →
    encFrame p { csmode := mode, csgen := 0 } (frameRegs x.frame x.len) (frameSlots v x.frame) = .ok (w, x.cserr)) ∧
  ∀ (cfg : Cfg) (r : Regs) (v v' : Vector Slot Config.nslot) (b : List Byte) (c : Bit),
    encFrame p cfg r v = .ok (b, c) →
    ∃ x, decFrame p cfg.csmode b = .ok x ∧ x.cserr = c ∧
      (cfg.csgen = 0 → view p (frameRegs x.frame x.len) (frameSlots v' x.frame) = view p r v) ∧
      (cfg.csgen = 1 → ∃ cs,
        view p (frameRegs x.frame x.len) (frameSlots v' x.frame) = view p { r with cs := cs } v ∧
        (1 < b.length → cs = byteAt b (b.length - 2) ∧
          cs = if r.kind = 2 then cssum (slice b 1 3) else cssum (slice b 4 (b.length - 2))))

/-- The laws between the commands (R280), from any state whose WIRE is in canonical form. (a) DEC_FRAME of a variable
frame with an ASDU, then ENC_ASDU, leaves the frame's payload in WIRE. (b) A successful DEC_ASDU, then ENC_FRAME, fails
with UnknownFrameStart. (c) A successful DEC_FRAME, then ENC_FRAME with CSGEN = 0, leaves WLEN and every byte of WIRE
as they were. (d) After a failed decode ENC_FRAME fails with UnknownFrameStart and ENC_ASDU with VSQNumberZero. -/
def Obligations.CommandComposition : Prop :=
  ∀ s t : State, s.par.valid = true → Memory.wf s.par.bufsz s.wire = true →
    (exec .decFrame s = .next t → t.status.st = 1 → t.regs.kind = 3 → t.regs.hasasdu = 1 →
      ∃ u, exec .encAsdu t = .next u ∧ u.status.st = 1 ∧ u.wlen.toNat = (s.byte 1).toNat - 2 ∧
        ∀ k, k < u.wlen.toNat → u.byte k = s.byte (6 + k)) ∧
    (exec .decAsdu s = .next t → t.status.st = 1 → FailsEncode .encFrame t 1 1) ∧
    (exec .decFrame s = .next t → t.status.st = 1 → s.cfg.csgen = 0 →
      ∃ u, exec .encFrame t = .next u ∧ u.status = t.status ∧ u.wlen = s.wlen ∧ ∀ k, u.byte k = s.byte k) ∧
    (exec .decFrame s = .next t ∨ exec .decAsdu s = .next t → t.status.st = 2 →
      FailsEncode .encFrame t 1 1 ∧ FailsEncode .encAsdu t 3 7)

/-- Two register states with the same `view` encode to the same bytes (R35): ENC_FRAME's for any view, ENC_ASDU's for
the same `view_asdu`. -/
def Obligations.ViewDeterminesEncoding : Prop :=
  (∀ (p : Params) (cfg : Cfg) (r r' : Regs) (v v' : Vector Slot Config.nslot) (x : Record),
    view p r v = some x → view p r' v' = some x → encFrame p cfg r v = encFrame p cfg r' v') ∧
  ∀ (p : Params) (r r' : Regs) (v v' : Vector Slot Config.nslot) (a : Asdu),
    viewAsdu p r v = some a → viewAsdu p r' v' = some a → encAsdu p r v = encAsdu p r' v'

/-! ## Invariants and runs -/

/-- Reset satisfies the invariant: parameters that R6 allows, WIRE canonical, WLEN within the buffer, CSMODE not
reserved, STATUS legal (R44). That the parameters have the spec's default values there and that WIRE is all zeros is
the model's choice (assumption log 1 and 4). -/
def Obligations.InvAtReset : Prop := Inv State.reset

/-- Every step keeps the invariant, from every state that satisfies it (R22, R23, R25, U3, U4, U12, R291), and no step
from any state changes the parameters (R32: "No operation and no host access can change it; reset does not change it").
-/
def Obligations.StepKeepsInv : Prop :=
  ∀ s t : State, step s = .next t → (Inv s → Inv t) ∧ t.par = s.par

/-- Every operation ends and every step goes on (R270, R343): from a state that satisfies the invariant, a run of any
length meets no fault and no refusal. With no host step to come the engine's step is the idle one, which changes
nothing: that the model has such a step is its own choice (assumption log 2). -/
def Obligations.RunsForever : Prop := ∀ (k : Nat) (s : State), Inv s → RunsFor k s

/-- A decode is a function of WIRE below WLEN, CSMODE and the parameters alone (R22, R33, R98): from two states that
agree on these, DEC_FRAME and DEC_ASDU leave the same STATUS, the same scalar registers and the same slots in use,
whatever the rest of WIRE, REC, STATUS, CSGEN and the object store held; and DEC_ASDU does not depend on CSMODE (R193).
-/
def Obligations.DecodeForgetsHistory : Prop :=
  ∀ s s' t t' : State, s'.par = s.par → s'.wlen = s.wlen → (∀ k, k < s.wlen.toNat → s'.byte k = s.byte k) →
    (exec .decFrame s = .next t → exec .decFrame s' = .next t' → s'.cfg.csmode = s.cfg.csmode →
      t'.status = t.status ∧ t'.regs = t.regs ∧
        ∀ j (h : j < Config.nslot), j < (vsqNum t.regs.vsq).toNat → t'.slots[j] = t.slots[j]) ∧
    (exec .decAsdu s = .next t → exec .decAsdu s' = .next t' →
      t'.status = t.status ∧ t'.regs = t.regs ∧
        ∀ j (h : j < Config.nslot), j < (vsqNum t.regs.vsq).toNat → t'.slots[j] = t.slots[j])

/-! ## Reset and the host -/

/-- The values the spec gives after reset (R44, R330), in the reset state and after a RESET step from any state,
whatever WIRE and the object store were drawn as; every draw can come: any byte at any offset, any slots; and RESET
does not change the parameters (R32). -/
def Obligations.ResetValues : Prop :=
  (∀ s : State, s = State.reset ∨ (∃ u w l, s = applyAccess (.reset w l) u) →
    s.cfg = { csmode := 1, csgen := 0 } ∧ s.cmd = 0 ∧ s.wlen = 0 ∧
      s.status = { st := 0, err := 0, cserr := 0, errpos := 0 } ∧
      s.regs = { kind := 0, sc := 0, ctrl := 0, laddr := 0, len := 0, cs := 0, hasasdu := 0, ti := 0, vsq := 0,
                 cotb := 0, ca := 0 }) ∧
  ∀ (u : State) (draw : Nat → Byte) (v : Vector Slot Config.nslot), ∃ w l,
    (∀ k, k < u.par.bufsz → (applyAccess (.reset w l) u).byte k = draw k) ∧
      (applyAccess (.reset w l) u).slots = v ∧ (applyAccess (.reset w l) u).par = u.par

/-- A START straight after reset (R332): the two decodes end with TruncatedInput at 0, ENC_FRAME with UnknownFrameStart,
ENC_ASDU with VSQNumberZero, whatever reset drew. -/
def Obligations.StartAfterReset : Prop :=
  ∀ (u : State) (w : List Byte) (l : List Slot) (s : State), s = applyAccess (.reset w l) u →
    FailsDecode .decFrame s 0 3 0 ∧ FailsDecode .decAsdu s 2 3 0 ∧ FailsEncode .encFrame s 1 1 ∧
      FailsEncode .encAsdu s 3 7

/-- The host's writes of WIRE, WLEN and CFG (R275, U3, U4, U5): the named byte or field takes the value and every other
byte and field stays; a value that does not fit, an offset outside the buffer, a WLEN above BUFSZ and CSMODE 3 are
refused and change nothing. WIRE is in its canonical form. -/
def Obligations.HostWritesWireSide : Prop :=
  ∀ s : State, s.par.valid = true → Memory.wf s.par.bufsz s.wire = true →
    (∀ k b, k < s.par.bufsz → b < 256 →
      ((applyAccess (.wire k b) s).byte k).toNat = b ∧
      (∀ j, j ≠ k → (applyAccess (.wire k b) s).byte j = s.byte j) ∧
      { applyAccess (.wire k b) s with wire := s.wire } = s) ∧
    (∀ k b, s.par.bufsz ≤ k ∨ 256 ≤ b → applyAccess (.wire k b) s = s) ∧
    (∀ v, v ≤ s.par.bufsz →
      (applyAccess (.wlen v) s).wlen.toNat = v ∧ { applyAccess (.wlen v) s with wlen := s.wlen } = s) ∧
    (∀ v, s.par.bufsz < v → applyAccess (.wlen v) s = s) ∧
    (∀ v, v ≠ 3 → applyAccess (.csmode v) s = { s with cfg := { csmode := v, csgen := s.cfg.csgen } }) ∧
    applyAccess (.csmode 3) s = s ∧
    ∀ v, applyAccess (.csgen v) s = { s with cfg := { csmode := s.cfg.csmode, csgen := v } }

/-- The host's writes of REC and of the object store, and of STATUS (R275, U2, U5, U6): the named register, address or
group byte takes a value that fits and nothing else changes; one that does not fit, or an index out of range, is
refused; a write of STATUS is ignored. The host's reads (R276) change nothing, and each returns what it names: CFG with
CSMODE in bits 1:0 and CSGEN in bit 2 (R23), STATUS with ST in bits 1:0, ERR in 5:2, CSERR in 6 and ERRPOS in 18:7
(R25); a read outside WIRE, the slots or a group is refused. -/
def Obligations.HostWritesRecordSide : Prop :=
  ∀ s : State,
    (∀ r v, v < 2 ^ regWidth r →
      (applyAccess (.reg r v) s).regs.get r = v ∧
      (∀ r', r' ≠ r → (applyAccess (.reg r v) s).regs.get r' = s.regs.get r') ∧
      { applyAccess (.reg r v) s with regs := s.regs } = s) ∧
    (∀ r v, 2 ^ regWidth r ≤ v → applyAccess (.reg r v) s = s) ∧
    (∀ i v (h : i < Config.nslot), v < 65536 →
      (applyAccess (.addr i v) s).slots[i].addr.toNat = v ∧
      (applyAccess (.addr i v) s).slots[i].eg = s.slots[i].eg ∧
      (∀ j (hj : j < Config.nslot), j ≠ i → (applyAccess (.addr i v) s).slots[j] = s.slots[j]) ∧
      { applyAccess (.addr i v) s with slots := s.slots } = s) ∧
    (∀ i j b (h : i < Config.nslot) (hj : j < Config.gmax), b < 256 →
      ((applyAccess (.eg i j b) s).slots[i].eg[j]).toNat = b ∧
      (∀ m (hm : m < Config.gmax), m ≠ j → (applyAccess (.eg i j b) s).slots[i].eg[m] = s.slots[i].eg[m]) ∧
      (applyAccess (.eg i j b) s).slots[i].addr = s.slots[i].addr ∧
      (∀ m (hm : m < Config.nslot), m ≠ i → (applyAccess (.eg i j b) s).slots[m] = s.slots[m]) ∧
      { applyAccess (.eg i j b) s with slots := s.slots } = s) ∧
    (∀ i v, Config.nslot ≤ i ∨ 65536 ≤ v → applyAccess (.addr i v) s = s) ∧
    (∀ i j b, Config.nslot ≤ i ∨ Config.gmax ≤ j ∨ 256 ≤ b → applyAccess (.eg i j b) s = s) ∧
    (∀ v, applyAccess (.status v) s = s) ∧
    (∀ x, applyAccess (.read x) s = s) ∧
    (∀ k, hostRead (.wire k) s = if k < s.par.bufsz then some (s.byte k).toNat else none) ∧
    hostRead .wlen s = some s.wlen.toNat ∧
    hostRead .cfg s = some (s.cfg.csmode.toNat + 4 * s.cfg.csgen.toNat) ∧
    hostRead .cmd s = some s.cmd.toNat ∧
    hostRead .status s =
      some (s.status.st.toNat + 4 * s.status.err.toNat + 64 * s.status.cserr.toNat + 128 * s.status.errpos.toNat) ∧
    [RecReg.kind, .sc, .ctrl, .laddr, .len, .cs, .hasasdu, .ti, .vsq, .cotb, .ca].map (fun r => hostRead (.reg r) s) =
      [some s.regs.kind.toNat, some s.regs.sc.toNat, some s.regs.ctrl.toNat, some s.regs.laddr.toNat,
        some s.regs.len.toNat, some s.regs.cs.toNat, some s.regs.hasasdu.toNat, some s.regs.ti.toNat,
        some s.regs.vsq.toNat, some s.regs.cotb.toNat, some s.regs.ca.toNat] ∧
    (∀ i (h : i < Config.nslot), hostRead (.addr i) s = some s.slots[i].addr.toNat ∧
      ∀ j (hj : j < Config.gmax), hostRead (.eg i j) s = some s.slots[i].eg[j].toNat) ∧
    (∀ i, Config.nslot ≤ i → hostRead (.addr i) s = none) ∧
    ∀ i j, Config.nslot ≤ i ∨ Config.gmax ≤ j → hostRead (.eg i j) s = none
end

