-- ==== Sys2Proof/Laws/Memory.lean ====
section
/-! SUPPORT. WIRE: what each memory operation reads back, and that each keeps the canonical form. -/

namespace Sys2Proof.Machine

-- The size of WIRE.
variable {z : Nat}

theorem Memory.read_nil (k : Nat) : Memory.read [] k = wireDefault := rfl

theorem Memory.wf_cons {a : Nat} {b : Byte} {m : Memory} :
    Memory.wf z ((a, b) :: m) = true ↔
      a < z ∧ b ≠ wireDefault ∧ (∀ c ∈ m, a < c.1) ∧ Memory.wf z m = true := by
  simp [Memory.wf, and_assoc]

theorem Memory.wf_tail {c : Host.Cell} {m : Memory} (h : Memory.wf z (c :: m) = true) : Memory.wf z m = true :=
  (Memory.wf_cons.mp h).2.2.2

/-- An offset below every listed one is not listed. -/
theorem Memory.read_of_lt {m : Memory} {k : Nat} (h : ∀ c ∈ m, k < c.1) : Memory.read m k = wireDefault := by
  induction m with
  | nil => rfl
  | cons c m ih =>
    obtain ⟨a, b⟩ := c
    have ha : k < a := h (a, b) (by simp)
    simp only [Memory.read, Nat.ne_of_gt ha, if_false]
    exact ih fun c hc => h c (by simp [hc])

/-- Every offset of the canonical form is one of the old ones or the one written. -/
theorem Memory.mem_insert {m : Memory} {k : Nat} {b : Byte} {c : Host.Cell} (h : c ∈ Memory.insert m k b) :
    c = (k, b) ∨ c ∈ m := by
  induction m with
  | nil => simp only [Memory.insert] at h; split at h <;> simp_all
  | cons d m ih =>
    obtain ⟨a, x⟩ := d
    simp only [Memory.insert] at h
    split at h
    · split at h <;> simp_all
    · split at h
      · split at h
        · exact .inr (by simp [h])
        · rcases List.mem_cons.mp h with rfl | h
          · exact .inl rfl
          · exact .inr (by simp [h])
      · rcases List.mem_cons.mp h with rfl | h
        · exact .inr (by simp)
        · rcases ih h with h | h
          · exact .inl h
          · exact .inr (by simp [h])

theorem Memory.wf_insert {m : Memory} {k : Nat} {b : Byte} (hk : k < z) (h : Memory.wf z m = true) :
    Memory.wf z (Memory.insert m k b) = true := by
  induction m with
  | nil =>
    simp only [Memory.insert]
    split
    · rfl
    · rename_i hb; exact Memory.wf_cons.mpr ⟨hk, hb, by simp, rfl⟩
  | cons d m ih =>
    obtain ⟨a, x⟩ := d
    obtain ⟨ha, hx, hall, hm⟩ := Memory.wf_cons.mp h
    simp only [Memory.insert]
    split
    · rename_i hka
      split
      · exact h
      · rename_i hb
        refine Memory.wf_cons.mpr ⟨hk, hb, ?_, h⟩
        intro c hc
        rcases List.mem_cons.mp hc with rfl | hc
        · exact hka
        · exact Nat.lt_trans hka (hall c hc)
    · rename_i hka
      split
      · rename_i hkeq
        subst hkeq
        split
        · exact hm
        · rename_i hb; exact Memory.wf_cons.mpr ⟨ha, hb, hall, hm⟩
      · rename_i hne
        refine Memory.wf_cons.mpr ⟨ha, hx, ?_, ih hm⟩
        intro c hc
        rcases Memory.mem_insert hc with rfl | hc
        · simp only; omega
        · exact hall c hc

/-- Reading after one insertion: the byte written at its offset, the old byte everywhere else. -/
theorem Memory.read_insert {m : Memory} (h : Memory.wf z m = true) (k j : Nat) (b : Byte) :
    Memory.read (Memory.insert m k b) j = if j = k then b else Memory.read m j := by
  induction m with
  | nil =>
    simp only [Memory.insert]
    split
    · rename_i hb; simp [Memory.read, hb]
    · simp only [Memory.read]; by_cases hj : k = j <;> simp [hj, eq_comm]
  | cons d m ih =>
    obtain ⟨a, x⟩ := d
    obtain ⟨ha, hx, hall, hm⟩ := Memory.wf_cons.mp h
    simp only [Memory.insert]
    split
    · rename_i hka
      split
      · rename_i hb
        by_cases hj : j = k
        · subst hj
          have : Memory.read ((a, x) :: m) j = wireDefault := by
            apply Memory.read_of_lt
            intro c hc
            rcases List.mem_cons.mp hc with rfl | hc
            · exact hka
            · exact Nat.lt_trans hka (hall c hc)
          simp [this, hb]
        · simp [hj]
      · by_cases hj : j = k
        · simp [Memory.read, hj]
        · have : ¬ k = j := fun e => hj e.symm
          simp [Memory.read, hj, this]
    · rename_i hka
      split
      · rename_i hkeq
        subst hkeq
        split
        · rename_i hb
          by_cases hj : j = k
          · subst hj; simp [Memory.read_of_lt hall, hb]
          · have : ¬ k = j := fun e => hj e.symm
            simp [Memory.read, hj, this]
        · by_cases hj : j = k
          · simp [Memory.read, hj]
          · have : ¬ k = j := fun e => hj e.symm
            simp [Memory.read, hj, this]
      · rename_i hne
        simp only [Memory.read]
        split
        · rename_i haj; subst haj
          have : ¬ a = k := fun e => hne e.symm
          simp [this]
        · exact ih hm

@[simp] theorem Memory.wf_nil : Memory.wf z [] = true := rfl

theorem Memory.wf_write {m : Memory} (k : Nat) (b : Byte) (h : Memory.wf z m = true) :
    Memory.wf z (Memory.write z m k b) = true := by
  unfold Memory.write; split
  · rename_i hk; exact Memory.wf_insert hk h
  · exact h

/-- Reading after a write: the byte written, at an offset WIRE has; the old byte everywhere else. -/
theorem Memory.read_write {m : Memory} (h : Memory.wf z m = true) (k j : Nat) (b : Byte) :
    Memory.read (Memory.write z m k b) j = if j = k ∧ k < z then b else Memory.read m j := by
  unfold Memory.write; split
  · rename_i hk; simp [Memory.read_insert h, hk]
  · rename_i hk; simp [hk]

theorem Memory.wf_writeBytes (bs : List Byte) {m : Memory} (a : Nat) (h : Memory.wf z m = true) :
    Memory.wf z (Memory.writeBytes z m a bs) = true := by
  induction bs generalizing m a with
  | nil => exact h
  | cons b bs ih => exact ih _ (Memory.wf_write a b h)

/-- Reading after `MemWrite(a, n, s)`: the bytes of s in their place, the old byte everywhere else (R65). -/
theorem Memory.read_writeBytes (bs : List Byte) {m : Memory} (a j : Nat) (h : Memory.wf z m = true) :
    Memory.read (Memory.writeBytes z m a bs) j =
      if a ≤ j ∧ j < a + bs.length ∧ j < z then byteAt bs (j - a) else Memory.read m j := by
  induction bs generalizing m a with
  | nil => simp [Memory.writeBytes]; omega
  | cons b bs ih =>
    rw [Memory.writeBytes, ih _ (Memory.wf_write a b h), Memory.read_write h]
    by_cases h1 : j = a
    · subst h1
      by_cases h2 : j < z <;> simp [h2, byteAt]
    · by_cases h3 : a + 1 ≤ j ∧ j < a + 1 + bs.length ∧ j < z
      · have h4 : a ≤ j ∧ j < a + (b :: bs).length ∧ j < z := by simp; omega
        obtain ⟨q, hq⟩ : ∃ q, j - a = q + 1 := ⟨j - a - 1, by omega⟩
        have hq' : j - (a + 1) = q := by omega
        rw [if_pos h3, if_pos h4, hq, hq']
        simp [byteAt]
      · have h4 : ¬ (a ≤ j ∧ j < a + (b :: bs).length ∧ j < z) := by simp; omega
        rw [if_neg h3, if_neg h4]; simp [h1]

@[simp] theorem Memory.readBytes_length (m : Memory) (a n : Nat) : (Memory.readBytes m a n).length = n := by
  induction n generalizing a with
  | zero => rfl
  | succ n ih => simp [Memory.readBytes, ih]

/-- Byte i of `MemRead(a, n)` (R64). -/
theorem Memory.readBytes_getElem (m : Memory) (a n i : Nat) (h : i < (Memory.readBytes m a n).length) :
    (Memory.readBytes m a n)[i] = Memory.read m (a + i) := by
  induction n generalizing a i with
  | zero => simp [Memory.readBytes] at h
  | succ n ih =>
    cases i with
    | zero => rfl
    | succ i =>
      simp only [Memory.readBytes, List.getElem_cons_succ]
      rw [ih]; congr 1; omega

theorem Memory.byteAt_readBytes (m : Memory) (a n i : Nat) (h : i < n) :
    byteAt (Memory.readBytes m a n) i = Memory.read m (a + i) := by
  have h' : i < (Memory.readBytes m a n).length := by simpa using h
  rw [byteAt, List.getD_eq_getElem _ _ h', Memory.readBytes_getElem]

/-- Reading back what was just written (R64, R65). -/
theorem Memory.readBytes_writeBytes {m : Memory} (h : Memory.wf z m = true) (bs : List Byte)
    (hb : bs.length ≤ z) : Memory.readBytes (Memory.writeBytes z m 0 bs) 0 bs.length = bs := by
  apply List.ext_getElem
  · simp
  · intro i h1 h2
    rw [Memory.readBytes_getElem, Memory.read_writeBytes _ _ _ h]
    have : i < z := by omega
    simp [h2, this, byteAt]

/-- Two memories in canonical form that read alike everywhere are the same list. -/
theorem Memory.ext_of_read {m m' : Memory} (h : Memory.wf z m = true) (h' : Memory.wf z m' = true)
    (hr : ∀ k, Memory.read m k = Memory.read m' k) : m = m' := by
  induction m generalizing m' with
  | nil =>
    cases m' with
    | nil => rfl
    | cons c m' =>
      obtain ⟨a, b⟩ := c
      have := hr a
      exact absurd (by simpa [Memory.read] using this.symm) (Memory.wf_cons.mp h').2.1
  | cons c m ih =>
    obtain ⟨a, b⟩ := c
    obtain ⟨ha, hb, hall, hm⟩ := Memory.wf_cons.mp h
    cases m' with
    | nil => exact absurd (by simpa [Memory.read] using hr a) hb
    | cons c' m' =>
      obtain ⟨a', b'⟩ := c'
      obtain ⟨ha', hb', hall', hm'⟩ := Memory.wf_cons.mp h'
      have haa : a = a' := by
        rcases Nat.lt_trichotomy a a' with hlt | heq | hgt
        · have h1 : Memory.read ((a', b') :: m') a = wireDefault := by
            apply Memory.read_of_lt
            intro c hc
            rcases List.mem_cons.mp hc with rfl | hc
            · exact hlt
            · exact Nat.lt_trans hlt (hall' c hc)
          have := hr a
          rw [h1] at this
          exact absurd (by simpa [Memory.read] using this) hb
        · exact heq
        · have h1 : Memory.read ((a, b) :: m) a' = wireDefault := by
            apply Memory.read_of_lt
            intro c hc
            rcases List.mem_cons.mp hc with rfl | hc
            · exact hgt
            · exact Nat.lt_trans hgt (hall c hc)
          have := hr a'
          rw [h1] at this
          exact absurd (by simpa [Memory.read] using this.symm) hb'
      subst haa
      have hbb : b = b' := by simpa [Memory.read] using hr a
      subst hbb
      congr 1
      apply ih hm hm'
      intro k
      by_cases hk : a = k
      · subst hk; rw [Memory.read_of_lt hall, Memory.read_of_lt hall']
      · simpa [Memory.read, hk] using hr k

/-- Writing the bytes that are already there changes nothing. -/
theorem Memory.writeBytes_readBytes {m : Memory} (h : Memory.wf z m = true) (n : Nat) :
    Memory.writeBytes z m 0 (Memory.readBytes m 0 n) = m := by
  apply Memory.ext_of_read (Memory.wf_writeBytes _ _ h) h
  intro k
  rw [Memory.read_writeBytes _ _ _ h]
  split
  · rename_i hk
    have : k < n := by simpa using hk.2.1
    rw [Memory.byteAt_readBytes _ _ _ _ (by omega)]; simp
  · rfl

end Sys2Proof.Machine
end

