-- ==== Sys2Proof/Laws/State.lean ====
section
/-! SUPPORT. One lemma per field per update of State, and per field of each shared operation that is a record update,
so that no proof unfolds one. -/

namespace Sys2Proof.Machine

@[simp] theorem State.setCmd_par (s : State) (op : BitVec 2) : (s.setCmd op).par = s.par := rfl
@[simp] theorem State.setCmd_wire (s : State) (op : BitVec 2) : (s.setCmd op).wire = s.wire := rfl
@[simp] theorem State.setCmd_wlen (s : State) (op : BitVec 2) : (s.setCmd op).wlen = s.wlen := rfl
@[simp] theorem State.setCmd_cfg (s : State) (op : BitVec 2) : (s.setCmd op).cfg = s.cfg := rfl
@[simp] theorem State.setCmd_cmd (s : State) (op : BitVec 2) : (s.setCmd op).cmd = op := rfl
@[simp] theorem State.setCmd_status (s : State) (op : BitVec 2) : (s.setCmd op).status = s.status := rfl
@[simp] theorem State.setCmd_regs (s : State) (op : BitVec 2) : (s.setCmd op).regs = s.regs := rfl
@[simp] theorem State.setCmd_slots (s : State) (op : BitVec 2) : (s.setCmd op).slots = s.slots := rfl
@[simp] theorem State.setCmd_pending (s : State) (op : BitVec 2) : (s.setCmd op).pending = s.pending := rfl

@[simp] theorem State.setStatus_par (s : State) (x : Status) : (s.setStatus x).par = s.par := rfl
@[simp] theorem State.setStatus_wire (s : State) (x : Status) : (s.setStatus x).wire = s.wire := rfl
@[simp] theorem State.setStatus_wlen (s : State) (x : Status) : (s.setStatus x).wlen = s.wlen := rfl
@[simp] theorem State.setStatus_cfg (s : State) (x : Status) : (s.setStatus x).cfg = s.cfg := rfl
@[simp] theorem State.setStatus_cmd (s : State) (x : Status) : (s.setStatus x).cmd = s.cmd := rfl
@[simp] theorem State.setStatus_status (s : State) (x : Status) : (s.setStatus x).status = x := rfl
@[simp] theorem State.setStatus_regs (s : State) (x : Status) : (s.setStatus x).regs = s.regs := rfl
@[simp] theorem State.setStatus_slots (s : State) (x : Status) : (s.setStatus x).slots = s.slots := rfl
@[simp] theorem State.setStatus_pending (s : State) (x : Status) : (s.setStatus x).pending = s.pending := rfl

@[simp] theorem State.setRegs_par (s : State) (r : Regs) : (s.setRegs r).par = s.par := rfl
@[simp] theorem State.setRegs_wire (s : State) (r : Regs) : (s.setRegs r).wire = s.wire := rfl
@[simp] theorem State.setRegs_wlen (s : State) (r : Regs) : (s.setRegs r).wlen = s.wlen := rfl
@[simp] theorem State.setRegs_cfg (s : State) (r : Regs) : (s.setRegs r).cfg = s.cfg := rfl
@[simp] theorem State.setRegs_cmd (s : State) (r : Regs) : (s.setRegs r).cmd = s.cmd := rfl
@[simp] theorem State.setRegs_status (s : State) (r : Regs) : (s.setRegs r).status = s.status := rfl
@[simp] theorem State.setRegs_regs (s : State) (r : Regs) : (s.setRegs r).regs = r := rfl
@[simp] theorem State.setRegs_slots (s : State) (r : Regs) : (s.setRegs r).slots = s.slots := rfl
@[simp] theorem State.setRegs_pending (s : State) (r : Regs) : (s.setRegs r).pending = s.pending := rfl

@[simp] theorem State.setSlots_par (s : State) (v : Vector Slot Config.nslot) : (s.setSlots v).par = s.par := rfl
@[simp] theorem State.setSlots_wire (s : State) (v : Vector Slot Config.nslot) : (s.setSlots v).wire = s.wire := rfl
@[simp] theorem State.setSlots_wlen (s : State) (v : Vector Slot Config.nslot) : (s.setSlots v).wlen = s.wlen := rfl
@[simp] theorem State.setSlots_cfg (s : State) (v : Vector Slot Config.nslot) : (s.setSlots v).cfg = s.cfg := rfl
@[simp] theorem State.setSlots_cmd (s : State) (v : Vector Slot Config.nslot) : (s.setSlots v).cmd = s.cmd := rfl
@[simp] theorem State.setSlots_status (s : State) (v : Vector Slot Config.nslot) : (s.setSlots v).status = s.status := rfl
@[simp] theorem State.setSlots_regs (s : State) (v : Vector Slot Config.nslot) : (s.setSlots v).regs = s.regs := rfl
@[simp] theorem State.setSlots_slots (s : State) (v : Vector Slot Config.nslot) : (s.setSlots v).slots = v := rfl
@[simp] theorem State.setSlots_pending (s : State) (v : Vector Slot Config.nslot) : (s.setSlots v).pending = s.pending := rfl

@[simp] theorem State.setWire_par (s : State) (m : Memory) : (s.setWire m).par = s.par := rfl
@[simp] theorem State.setWire_wire (s : State) (m : Memory) : (s.setWire m).wire = m := rfl
@[simp] theorem State.setWire_wlen (s : State) (m : Memory) : (s.setWire m).wlen = s.wlen := rfl
@[simp] theorem State.setWire_cfg (s : State) (m : Memory) : (s.setWire m).cfg = s.cfg := rfl
@[simp] theorem State.setWire_cmd (s : State) (m : Memory) : (s.setWire m).cmd = s.cmd := rfl
@[simp] theorem State.setWire_status (s : State) (m : Memory) : (s.setWire m).status = s.status := rfl
@[simp] theorem State.setWire_regs (s : State) (m : Memory) : (s.setWire m).regs = s.regs := rfl
@[simp] theorem State.setWire_slots (s : State) (m : Memory) : (s.setWire m).slots = s.slots := rfl
@[simp] theorem State.setWire_pending (s : State) (m : Memory) : (s.setWire m).pending = s.pending := rfl

@[simp] theorem State.setWlen_par (s : State) (n : Nat) : (s.setWlen n).par = s.par := rfl
@[simp] theorem State.setWlen_wire (s : State) (n : Nat) : (s.setWlen n).wire = s.wire := rfl
@[simp] theorem State.setWlen_wlen (s : State) (n : Nat) : (s.setWlen n).wlen = BitVec.ofNat 12 n := rfl
@[simp] theorem State.setWlen_cfg (s : State) (n : Nat) : (s.setWlen n).cfg = s.cfg := rfl
@[simp] theorem State.setWlen_cmd (s : State) (n : Nat) : (s.setWlen n).cmd = s.cmd := rfl
@[simp] theorem State.setWlen_status (s : State) (n : Nat) : (s.setWlen n).status = s.status := rfl
@[simp] theorem State.setWlen_regs (s : State) (n : Nat) : (s.setWlen n).regs = s.regs := rfl
@[simp] theorem State.setWlen_slots (s : State) (n : Nat) : (s.setWlen n).slots = s.slots := rfl
@[simp] theorem State.setWlen_pending (s : State) (n : Nat) : (s.setWlen n).pending = s.pending := rfl

@[simp] theorem State.setCfg_par (s : State) (c : Cfg) : (s.setCfg c).par = s.par := rfl
@[simp] theorem State.setCfg_wire (s : State) (c : Cfg) : (s.setCfg c).wire = s.wire := rfl
@[simp] theorem State.setCfg_wlen (s : State) (c : Cfg) : (s.setCfg c).wlen = s.wlen := rfl
@[simp] theorem State.setCfg_cfg (s : State) (c : Cfg) : (s.setCfg c).cfg = c := rfl
@[simp] theorem State.setCfg_cmd (s : State) (c : Cfg) : (s.setCfg c).cmd = s.cmd := rfl
@[simp] theorem State.setCfg_status (s : State) (c : Cfg) : (s.setCfg c).status = s.status := rfl
@[simp] theorem State.setCfg_regs (s : State) (c : Cfg) : (s.setCfg c).regs = s.regs := rfl
@[simp] theorem State.setCfg_slots (s : State) (c : Cfg) : (s.setCfg c).slots = s.slots := rfl
@[simp] theorem State.setCfg_pending (s : State) (c : Cfg) : (s.setCfg c).pending = s.pending := rfl

@[simp] theorem State.setPending_par (s : State) (l : List HostAction) : (s.setPending l).par = s.par := rfl
@[simp] theorem State.setPending_wire (s : State) (l : List HostAction) : (s.setPending l).wire = s.wire := rfl
@[simp] theorem State.setPending_wlen (s : State) (l : List HostAction) : (s.setPending l).wlen = s.wlen := rfl
@[simp] theorem State.setPending_cfg (s : State) (l : List HostAction) : (s.setPending l).cfg = s.cfg := rfl
@[simp] theorem State.setPending_cmd (s : State) (l : List HostAction) : (s.setPending l).cmd = s.cmd := rfl
@[simp] theorem State.setPending_status (s : State) (l : List HostAction) : (s.setPending l).status = s.status := rfl
@[simp] theorem State.setPending_regs (s : State) (l : List HostAction) : (s.setPending l).regs = s.regs := rfl
@[simp] theorem State.setPending_slots (s : State) (l : List HostAction) : (s.setPending l).slots = s.slots := rfl
@[simp] theorem State.setPending_pending (s : State) (l : List HostAction) : (s.setPending l).pending = l := rfl

@[simp] theorem failDecode_par (s : State) (e : CodecErr) : (failDecode s e).par = s.par := rfl
@[simp] theorem failDecode_wire (s : State) (e : CodecErr) : (failDecode s e).wire = s.wire := rfl
@[simp] theorem failDecode_wlen (s : State) (e : CodecErr) : (failDecode s e).wlen = s.wlen := rfl
@[simp] theorem failDecode_cfg (s : State) (e : CodecErr) : (failDecode s e).cfg = s.cfg := rfl
@[simp] theorem failDecode_cmd (s : State) (e : CodecErr) : (failDecode s e).cmd = s.cmd := rfl
@[simp] theorem failDecode_status (s : State) (e : CodecErr) : (failDecode s e).status = statusErr e.kind e.pos := rfl
@[simp] theorem failDecode_regs (s : State) (e : CodecErr) : (failDecode s e).regs = Regs.zero := rfl
@[simp] theorem failDecode_slots (s : State) (e : CodecErr) : (failDecode s e).slots = s.slots := rfl
@[simp] theorem failDecode_pending (s : State) (e : CodecErr) : (failDecode s e).pending = s.pending := rfl

@[simp] theorem failEncode_par (s : State) (e : ErrKind) : (failEncode s e).par = s.par := rfl
@[simp] theorem failEncode_wire (s : State) (e : ErrKind) : (failEncode s e).wire = s.wire := rfl
@[simp] theorem failEncode_wlen (s : State) (e : ErrKind) : (failEncode s e).wlen = 0 := rfl
@[simp] theorem failEncode_cfg (s : State) (e : ErrKind) : (failEncode s e).cfg = s.cfg := rfl
@[simp] theorem failEncode_cmd (s : State) (e : ErrKind) : (failEncode s e).cmd = s.cmd := rfl
@[simp] theorem failEncode_status (s : State) (e : ErrKind) : (failEncode s e).status = statusErr e 0 := rfl
@[simp] theorem failEncode_regs (s : State) (e : ErrKind) : (failEncode s e).regs = s.regs := rfl
@[simp] theorem failEncode_slots (s : State) (e : ErrKind) : (failEncode s e).slots = s.slots := rfl
@[simp] theorem failEncode_pending (s : State) (e : ErrKind) : (failEncode s e).pending = s.pending := rfl

@[simp] theorem loadBareAsdu_par (s : State) (a : Asdu) : (loadBareAsdu s a).par = s.par := rfl
@[simp] theorem loadBareAsdu_wire (s : State) (a : Asdu) : (loadBareAsdu s a).wire = s.wire := rfl
@[simp] theorem loadBareAsdu_wlen (s : State) (a : Asdu) : (loadBareAsdu s a).wlen = s.wlen := rfl
@[simp] theorem loadBareAsdu_cfg (s : State) (a : Asdu) : (loadBareAsdu s a).cfg = s.cfg := rfl
@[simp] theorem loadBareAsdu_cmd (s : State) (a : Asdu) : (loadBareAsdu s a).cmd = s.cmd := rfl
@[simp] theorem loadBareAsdu_status (s : State) (a : Asdu) : (loadBareAsdu s a).status = statusOk 0 := rfl
@[simp] theorem loadBareAsdu_regs (s : State) (a : Asdu) :
    (loadBareAsdu s a).regs = asduRegs { Regs.zero with kind := 4 } a := rfl
@[simp] theorem loadBareAsdu_slots (s : State) (a : Asdu) : (loadBareAsdu s a).slots = storeObjs s.slots a := rfl
@[simp] theorem loadBareAsdu_pending (s : State) (a : Asdu) : (loadBareAsdu s a).pending = s.pending := rfl

@[simp] theorem loadFrame_par (s : State) (r : FrameResult) : (loadFrame s r).par = s.par := rfl
@[simp] theorem loadFrame_wire (s : State) (r : FrameResult) : (loadFrame s r).wire = s.wire := rfl
@[simp] theorem loadFrame_wlen (s : State) (r : FrameResult) : (loadFrame s r).wlen = s.wlen := rfl
@[simp] theorem loadFrame_cfg (s : State) (r : FrameResult) : (loadFrame s r).cfg = s.cfg := rfl
@[simp] theorem loadFrame_cmd (s : State) (r : FrameResult) : (loadFrame s r).cmd = s.cmd := rfl
@[simp] theorem loadFrame_status (s : State) (r : FrameResult) : (loadFrame s r).status = statusOk r.cserr := rfl
@[simp] theorem loadFrame_regs (s : State) (r : FrameResult) : (loadFrame s r).regs = frameRegs r.frame r.len := rfl
@[simp] theorem loadFrame_slots (s : State) (r : FrameResult) : (loadFrame s r).slots = frameSlots s.slots r.frame := rfl
@[simp] theorem loadFrame_pending (s : State) (r : FrameResult) : (loadFrame s r).pending = s.pending := rfl

@[simp] theorem storeWire_par (s : State) (b : List Byte) (c : Bit) : (storeWire s b c).par = s.par := rfl
@[simp] theorem storeWire_wire (s : State) (b : List Byte) (c : Bit) :
    (storeWire s b c).wire = Memory.writeBytes s.par.bufsz s.wire 0 b := rfl
@[simp] theorem storeWire_wlen (s : State) (b : List Byte) (c : Bit) :
    (storeWire s b c).wlen = BitVec.ofNat 12 b.length := rfl
@[simp] theorem storeWire_cfg (s : State) (b : List Byte) (c : Bit) : (storeWire s b c).cfg = s.cfg := rfl
@[simp] theorem storeWire_cmd (s : State) (b : List Byte) (c : Bit) : (storeWire s b c).cmd = s.cmd := rfl
@[simp] theorem storeWire_status (s : State) (b : List Byte) (c : Bit) : (storeWire s b c).status = statusOk c := rfl
@[simp] theorem storeWire_regs (s : State) (b : List Byte) (c : Bit) : (storeWire s b c).regs = s.regs := rfl
@[simp] theorem storeWire_slots (s : State) (b : List Byte) (c : Bit) : (storeWire s b c).slots = s.slots := rfl
@[simp] theorem storeWire_pending (s : State) (b : List Byte) (c : Bit) : (storeWire s b c).pending = s.pending := rfl

/-- An update with the value the field already holds changes nothing. -/
@[simp] theorem State.setWire_self (s : State) : s.setWire s.wire = s := rfl
@[simp] theorem State.setStatus_self (s : State) : s.setStatus s.status = s := rfl
@[simp] theorem State.setCmd_setCmd (s : State) (a b : BitVec 2) : (s.setCmd a).setCmd b = s.setCmd b := rfl

@[simp] theorem statusOk_st (c : Bit) : (statusOk c).st = 1 := rfl
@[simp] theorem statusOk_err (c : Bit) : (statusOk c).err = 0 := rfl
@[simp] theorem statusOk_cserr (c : Bit) : (statusOk c).cserr = c := rfl
@[simp] theorem statusOk_errpos (c : Bit) : (statusOk c).errpos = 0 := rfl
@[simp] theorem statusErr_st (e : ErrKind) (p : Nat) : (statusErr e p).st = 2 := rfl
@[simp] theorem statusErr_err (e : ErrKind) (p : Nat) : (statusErr e p).err = e.code := rfl
@[simp] theorem statusErr_errpos (e : ErrKind) (p : Nat) : (statusErr e p).errpos = BitVec.ofNat 12 p := rfl
theorem statusErr_cserr (e : ErrKind) (p : Nat) :
    (statusErr e p).cserr = if e = .checksumMismatch then 1 else 0 := rfl

end Sys2Proof.Machine
end

