-- ==== Sys2Proof/Laws/Ops.lean ====
section
/-! SUPPORT. One lemma per shared operation that says once everything it can do: reading WIRE, the two decode frames, the
encode frame, the object store, a host access. -/

namespace Sys2Proof.Machine

/-! ## What a decode is given -/

theorem readWire_eq_some {s : State} {w : List Byte} :
    readWire s = some w ↔ s.wlen.toNat ≤ s.par.bufsz ∧ w = Memory.readBytes s.wire 0 s.wlen.toNat := by
  unfold readWire
  split <;> simp_all [eq_comm]

theorem readWire_of_le {s : State} (h : s.wlen.toNat ≤ s.par.bufsz) :
    readWire s = some (Memory.readBytes s.wire 0 s.wlen.toNat) := by
  simp [readWire, h]

theorem readWire_length {s : State} {w : List Byte} (h : readWire s = some w) : w.length = s.wlen.toNat := by
  rw [(readWire_eq_some.mp h).2]; simp

theorem readWire_byteAt {s : State} {w : List Byte} (h : readWire s = some w) {i : Nat} (hi : i < w.length) :
    byteAt w i = Memory.read s.wire i := by
  have hl := readWire_length h
  rw [(readWire_eq_some.mp h).2, Memory.byteAt_readBytes _ _ _ _ (by omega)]; simp

/-- What a decode is given depends on BUFSZ, WIRE and WLEN only. -/
theorem readWire_congr {s t : State} (hp : t.par = s.par) (hw : t.wire = s.wire) (hl : t.wlen = s.wlen) :
    readWire t = readWire s := by
  simp [readWire, hp, hw, hl]

@[simp] theorem readWire_setCmd (s : State) (op : BitVec 2) : readWire (s.setCmd op) = readWire s := rfl
@[simp] theorem readWire_setStatus (s : State) (x : Status) : readWire (s.setStatus x) = readWire s := rfl
@[simp] theorem readWire_setRegs (s : State) (r : Regs) : readWire (s.setRegs r) = readWire s := rfl
@[simp] theorem readWire_setSlots (s : State) (v : Vector Slot Config.nslot) :
    readWire (s.setSlots v) = readWire s := rfl
@[simp] theorem readWire_setCfg (s : State) (c : Cfg) : readWire (s.setCfg c) = readWire s := rfl
@[simp] theorem readWire_setPending (s : State) (l : List HostAction) : readWire (s.setPending l) = readWire s := rfl

/-! ## The two decode frames -/

/-- All a link-level decode can answer. -/
theorem decodeFrameOp_cases (f : BitVec 2 → List Byte → Except CodecErr FrameResult) (s : State) :
    (readWire s = none ∧ decodeFrameOp f s = .fault .wireOutOfRange) ∨
    (∃ w r, readWire s = some w ∧ f s.cfg.csmode w = .ok r ∧ decodeFrameOp f s = .next (loadFrame s r)) ∨
    (∃ w e, readWire s = some w ∧ f s.cfg.csmode w = .error e ∧ decodeFrameOp f s = .next (failDecode s e)) := by
  unfold decodeFrameOp
  cases hw : readWire s with
  | none => exact .inl ⟨rfl, rfl⟩
  | some w =>
    cases hf : f s.cfg.csmode w with
    | ok r => exact .inr (.inl ⟨w, r, rfl, hf, by simp [hf]⟩)
    | error e => exact .inr (.inr ⟨w, e, rfl, hf, by simp [hf]⟩)

theorem decodeFrameOp_ok {f : BitVec 2 → List Byte → Except CodecErr FrameResult} {s : State} {w : List Byte}
    {r : FrameResult} (hw : readWire s = some w) (hf : f s.cfg.csmode w = .ok r) :
    decodeFrameOp f s = .next (loadFrame s r) := by
  simp [decodeFrameOp, hw, hf]

theorem decodeFrameOp_error {f : BitVec 2 → List Byte → Except CodecErr FrameResult} {s : State} {w : List Byte}
    {e : CodecErr} (hw : readWire s = some w) (hf : f s.cfg.csmode w = .error e) :
    decodeFrameOp f s = .next (failDecode s e) := by
  simp [decodeFrameOp, hw, hf]

/-- If a link-level decode goes on, it has loaded its frame or taken its error. -/
theorem decodeFrameOp_next {f : BitVec 2 → List Byte → Except CodecErr FrameResult} {s t : State}
    (h : decodeFrameOp f s = .next t) :
    ∃ w, readWire s = some w ∧
      ((∃ r, f s.cfg.csmode w = .ok r ∧ t = loadFrame s r) ∨ (∃ e, f s.cfg.csmode w = .error e ∧ t = failDecode s e)) := by
  rcases decodeFrameOp_cases f s with ⟨_, h'⟩ | ⟨w, r, hw, hf, h'⟩ | ⟨w, e, hw, hf, h'⟩ <;> rw [h'] at h
  · cases h
  · cases h; exact ⟨w, hw, .inl ⟨r, hf, rfl⟩⟩
  · cases h; exact ⟨w, hw, .inr ⟨e, hf, rfl⟩⟩

/-- All an ASDU-level decode can answer. -/
theorem decodeAsduOp_cases (f : List Byte → Except CodecErr Asdu) (s : State) :
    (readWire s = none ∧ decodeAsduOp f s = .fault .wireOutOfRange) ∨
    (∃ w a, readWire s = some w ∧ f w = .ok a ∧ decodeAsduOp f s = .next (loadBareAsdu s a)) ∨
    (∃ w e, readWire s = some w ∧ f w = .error e ∧ decodeAsduOp f s = .next (failDecode s e)) := by
  unfold decodeAsduOp
  cases hw : readWire s with
  | none => exact .inl ⟨rfl, rfl⟩
  | some w =>
    cases hf : f w with
    | ok a => exact .inr (.inl ⟨w, a, rfl, hf, by simp [hf]⟩)
    | error e => exact .inr (.inr ⟨w, e, rfl, hf, by simp [hf]⟩)

theorem decodeAsduOp_ok {f : List Byte → Except CodecErr Asdu} {s : State} {w : List Byte} {a : Asdu}
    (hw : readWire s = some w) (hf : f w = .ok a) : decodeAsduOp f s = .next (loadBareAsdu s a) := by
  simp [decodeAsduOp, hw, hf]

theorem decodeAsduOp_error {f : List Byte → Except CodecErr Asdu} {s : State} {w : List Byte} {e : CodecErr}
    (hw : readWire s = some w) (hf : f w = .error e) : decodeAsduOp f s = .next (failDecode s e) := by
  simp [decodeAsduOp, hw, hf]

/-- If an ASDU-level decode goes on, it has loaded its ASDU or taken its error. -/
theorem decodeAsduOp_next {f : List Byte → Except CodecErr Asdu} {s t : State} (h : decodeAsduOp f s = .next t) :
    ∃ w, readWire s = some w ∧
      ((∃ a, f w = .ok a ∧ t = loadBareAsdu s a) ∨ (∃ e, f w = .error e ∧ t = failDecode s e)) := by
  rcases decodeAsduOp_cases f s with ⟨_, h'⟩ | ⟨w, a, hw, hf, h'⟩ | ⟨w, e, hw, hf, h'⟩ <;> rw [h'] at h
  · cases h
  · cases h; exact ⟨w, hw, .inl ⟨a, hf, rfl⟩⟩
  · cases h; exact ⟨w, hw, .inr ⟨e, hf, rfl⟩⟩

/-! ## The encode frame -/

/-- All an encode can answer. -/
theorem encodeOp_cases (r : Except CodecErr (List Byte × Bit)) (s : State) :
    (∃ b c, r = .ok (b, c) ∧ encodeOp r s = storeWire s b c) ∨
    (∃ e, r = .error e ∧ encodeOp r s = failEncode s e.kind) := by
  rcases r with e | ⟨b, c⟩
  · exact .inr ⟨e, rfl, rfl⟩
  · exact .inl ⟨b, c, rfl, rfl⟩

/-- No encode changes the parameters, CFG, CMD, REC or the object store (R32, R272, R274). -/
theorem encodeOp_frame (r : Except CodecErr (List Byte × Bit)) (s : State) :
    (encodeOp r s).par = s.par ∧ (encodeOp r s).cfg = s.cfg ∧ (encodeOp r s).cmd = s.cmd ∧ (encodeOp r s).regs = s.regs ∧
      (encodeOp r s).slots = s.slots ∧ (encodeOp r s).pending = s.pending := by
  rcases encodeOp_cases r s with ⟨b, c, _, h⟩ | ⟨e, _, h⟩ <;> rw [h] <;> simp

/-- WLEN after an encode of bytes that fit its 12 bits. -/
theorem storeWire_wlen_toNat {s : State} {b : List Byte} {c : Bit} (h : b.length < 4096) :
    (storeWire s b c).wlen.toNat = b.length := by
  simp [Nat.mod_eq_of_lt h]

/-- WIRE after an encode: the new bytes from offset 0, the old ones above (R65). -/
theorem storeWire_read {s : State} {b : List Byte} {c : Bit} (h : Memory.wf s.par.bufsz s.wire = true)
    (hb : b.length ≤ s.par.bufsz) (k : Nat) :
    Memory.read (storeWire s b c).wire k = if k < b.length then byteAt b k else Memory.read s.wire k := by
  rw [storeWire_wire, Memory.read_writeBytes _ _ _ h]
  by_cases hk : k < b.length
  · rw [if_pos ⟨Nat.zero_le _, by omega, by omega⟩, if_pos hk, Nat.sub_zero]
  · rw [if_neg (by omega), if_neg hk]

/-- What the next decode is given after an encode (R65, R71). -/
theorem readWire_storeWire {s : State} {b : List Byte} {c : Bit} (h : Memory.wf s.par.bufsz s.wire = true)
    (hz : s.par.bufsz ≤ 4095) (hb : b.length ≤ s.par.bufsz) : readWire (storeWire s b c) = some b := by
  have hl : (storeWire s b c).wlen.toNat = b.length := storeWire_wlen_toNat (by omega)
  rw [readWire_of_le (by rw [hl]; exact hb), hl, storeWire_wire, Memory.readBytes_writeBytes h b hb]

/-! ## The object store -/

theorem storeObjs_getElem (v : Vector Slot Config.nslot) (a : Asdu) (i : Nat) (h : i < Config.nslot) :
    (storeObjs v a)[i] =
      if i < a.num.toNat then { addr := a.objs.addr i, eg := padGroup (a.objs.group i) } else v[i] := by
  simp [storeObjs]

/-- A slot a decode writes (R36). -/
theorem storeObjs_of_lt (v : Vector Slot Config.nslot) (a : Asdu) (i : Nat) (h : i < Config.nslot)
    (hi : i < a.num.toNat) :
    (storeObjs v a)[i] = { addr := a.objs.addr i, eg := padGroup (a.objs.group i) } := by
  rw [storeObjs_getElem, if_pos hi]

/-- A slot a decode keeps (R36). -/
theorem storeObjs_of_ge (v : Vector Slot Config.nslot) (a : Asdu) (i : Nat) (h : i < Config.nslot)
    (hi : a.num.toNat ≤ i) : (storeObjs v a)[i] = v[i] := by
  rw [storeObjs_getElem, if_neg (by omega)]

@[simp] theorem padGroup_getElem (bs : List Byte) (j : Nat) (h : j < Config.gmax) :
    (padGroup bs)[j] = byteAt bs j := by
  simp [padGroup, byteAt]

/-- The first bytes of a group loaded into a slot are the group (R29). -/
theorem take_padGroup (bs : List Byte) (h : bs.length ≤ Config.gmax) : (padGroup bs).toList.take bs.length = bs := by
  apply List.ext_getElem
  · simpa using h
  · intro j h1 h2
    rw [List.getElem_take, Vector.getElem_toList, padGroup_getElem]
    simp [byteAt, h2]

/-- A slot update changes the one slot it names. -/
theorem updateSlot_cases (s : State) (i : Nat) (f : Slot → Slot) :
    (∃ h : i < Config.nslot, s.updateSlot i f = s.setSlots (s.slots.set i (f s.slots[i]))) ∨
    (Config.nslot ≤ i ∧ s.updateSlot i f = s) := by
  unfold State.updateSlot
  split
  · exact .inl ⟨by assumption, rfl⟩
  · exact .inr ⟨by omega, rfl⟩

/-! ## Host accesses -/

/-- A host write through the extractor view leaves all but the object store as it was (R31, R275). -/
theorem fldWrite_cases (s : State) (i : Nat) (k : Kind) (f : Field) (v : Nat) :
    fldWrite s i k f v = s ∨ ∃ x, fldWrite s i k f v = s.setSlots x := by
  unfold fldWrite
  split
  · exact .inl rfl
  · split
    · rcases updateSlot_cases s i fun sl => { sl with eg := egSetField sl.eg _ v } with ⟨h, e⟩ | ⟨_, e⟩
      · exact .inr ⟨_, e⟩
      · exact .inl e
    · exact .inl rfl

/-- All a host access can do: nothing (refused, a read, a write of STATUS), one part of the state replaced by a legal
value, or a reset (R275, R276, R277). -/
theorem applyAccess_cases (a : Access) (s : State) :
    applyAccess a s = s ∨
    (∃ k b, a = .wire k b ∧ k < s.par.bufsz ∧ b < 2 ^ 8 ∧
      applyAccess a s = s.setWire (Memory.write s.par.bufsz s.wire k (BitVec.ofNat 8 b))) ∨
    (∃ v, a = .wlen v ∧ v ≤ s.par.bufsz ∧ applyAccess a s = s.setWlen v) ∨
    (∃ c : Cfg, (c.csmode ≠ 3 ∨ c.csmode = s.cfg.csmode) ∧ applyAccess a s = s.setCfg c) ∨
    (∃ r, applyAccess a s = s.setRegs r) ∨
    (∃ x, applyAccess a s = s.setSlots x) ∨
    (∃ w l, a = .reset w l ∧ applyAccess a s = resetWith s w l) := by
  cases a with
  | wire k b =>
    simp only [applyAccess]
    split
    · rename_i h; exact .inr (.inl ⟨k, b, rfl, h.1, h.2, rfl⟩)
    · exact .inl rfl
  | wlen v =>
    simp only [applyAccess]
    split
    · rename_i h; exact .inr (.inr (.inl ⟨v, rfl, h, rfl⟩))
    · exact .inl rfl
  | csmode v =>
    simp only [applyAccess]
    split
    · exact .inl rfl
    · rename_i h; exact .inr (.inr (.inr (.inl ⟨_, .inl h, rfl⟩)))
  | csgen v => exact .inr (.inr (.inr (.inl ⟨{ s.cfg with csgen := v }, .inr rfl, rfl⟩)))
  | reg r v =>
    simp only [applyAccess]
    split
    · exact .inr (.inr (.inr (.inr (.inl ⟨_, rfl⟩))))
    · exact .inl rfl
  | addr i v =>
    simp only [applyAccess]
    split
    · rcases updateSlot_cases s i fun sl => { sl with addr := BitVec.ofNat 16 v } with ⟨h, e⟩ | ⟨_, e⟩
      · exact .inr (.inr (.inr (.inr (.inr (.inl ⟨_, e⟩)))))
      · exact .inl e
    · exact .inl rfl
  | eg i j b =>
    simp only [applyAccess]
    split
    · rcases updateSlot_cases s i fun sl => setEgByte sl j (BitVec.ofNat 8 b) with ⟨h, e⟩ | ⟨_, e⟩
      · exact .inr (.inr (.inr (.inr (.inr (.inl ⟨_, e⟩)))))
      · exact .inl e
    · exact .inl rfl
  | fld i k f v =>
    rcases fldWrite_cases s i k f v with e | ⟨x, e⟩
    · exact .inl e
    · exact .inr (.inr (.inr (.inr (.inr (.inl ⟨x, e⟩)))))
  | status v => exact .inl rfl
  | read t => exact .inl rfl
  | reset w l => exact .inr (.inr (.inr (.inr (.inr (.inr ⟨w, l, rfl, rfl⟩)))))

/-- Reset's WIRE has the canonical form, whatever was drawn. -/
theorem resetWith_wire_wf (s : State) (w : List Byte) (l : List Slot) :
    Memory.wf s.par.bufsz (resetWith s w l).wire = true := Memory.wf_writeBytes w 0 rfl

/-- No host access changes the parameters (R32). -/
@[simp] theorem applyAccess_par (a : Access) (s : State) : (applyAccess a s).par = s.par := by
  rcases applyAccess_cases a s with h | ⟨_, _, _, _, _, h⟩ | ⟨_, _, _, h⟩ | ⟨_, _, h⟩ | ⟨_, h⟩ | ⟨_, h⟩ | ⟨_, _, _, h⟩ <;>
    rw [h] <;> rfl

end Sys2Proof.Machine
end

