-- ==== Sys2Proof/Laws/Params.lean ====
section
/-! SUPPORT. What a valid value of the OPEN parameters gives the proofs (spec/00_scope.md R6), and that the spec's own
tables are one. -/

namespace Sys2Proof

theorem findRow_some {ti : Byte} {rs : List Row} {row : Row} (h : findRow ti rs = some row) :
    row ∈ rs ∧ row.ti = ti := by
  induction rs with
  | nil => cases h
  | cons r rs ih =>
    simp only [findRow] at h
    split at h
    · rename_i hr; cases h; exact ⟨by simp, hr⟩
    · exact ⟨by simp [(ih h).1], (ih h).2⟩

/-- A list of rows has a row for exactly the type identifiers in its first column. -/
theorem findRow_isSome {ti : Byte} {rs : List Row} : (findRow ti rs).isSome = true ↔ ti ∈ rs.map Row.ti := by
  induction rs with
  | nil => simp [findRow]
  | cons r rs ih =>
    simp only [findRow, List.map_cons, List.mem_cons]
    split
    · rename_i h; simp [h]
    · rename_i h
      have h' : ¬ ti = r.ti := fun e => h e.symm
      rw [ih]; simp [h']

theorem assoc_mem {α β : Type} [DecidableEq α] {a : α} {l : List (α × β)} {b : β} (h : assoc a l = some b) :
    (a, b) ∈ l := by
  induction l with
  | nil => cases h
  | cons c l ih =>
    obtain ⟨x, y⟩ := c
    simp only [assoc] at h
    split at h
    · rename_i hx; cases h; simp [hx]
    · exact List.mem_cons_of_mem _ (ih h)

/-- In a list whose keys differ, every entry is the first with its key. -/
theorem assoc_of_mem {α β : Type} [DecidableEq α] {a : α} {l : List (α × β)} {b : β} (hn : (l.map Prod.fst).Nodup)
    (h : (a, b) ∈ l) : assoc a l = some b := by
  induction l with
  | nil => cases h
  | cons c l ih =>
    obtain ⟨x, y⟩ := c
    simp only [List.map_cons, List.nodup_cons] at hn
    rcases List.mem_cons.mp h with e | h
    · cases e; simp [assoc]
    · have : x ≠ a := fun e => hn.1 (e ▸ List.mem_map_of_mem h)
      simp [assoc, this, ih hn.2 h]

/-! ## Valid parameters -/

theorem Params.valid_bufsz {p : Params} (h : p.valid = true) : 1782 ≤ p.bufsz ∧ p.bufsz ≤ 4095 := by
  simp only [Params.valid, Bool.and_eq_true, decide_eq_true_eq] at h
  exact ⟨h.1.1.1.1.1.1.1, h.1.1.1.1.1.1.2⟩

theorem Params.valid_keys {p : Params} (h : p.valid = true) : p.registry.map Row.ti = Config.typeIds := by
  simp only [Params.valid, Bool.and_eq_true, decide_eq_true_eq] at h
  exact h.1.1.1.1.1.2

/-- The type identifiers with a row are the 40 (R32, R220). -/
theorem Params.valid_known {p : Params} (h : p.valid = true) (ti : Byte) :
    p.known ti = true ↔ ti ∈ Config.typeIds := by
  rw [← Params.valid_keys h, Params.known, Params.lookup, findRow_isSome]

theorem Params.lookup_ti {p : Params} {ti : Byte} {row : Row} (h : p.lookup ti = some row) : row.ti = ti :=
  (findRow_some h).2

theorem Params.valid_row {p : Params} (h : p.valid = true) {ti : Byte} {row : Row} (hl : p.lookup ti = some row) :
    row.group.Nodup ∧ 1 ≤ p.gsize row ∧ p.gsize row ≤ Config.gmax := by
  simp only [Params.valid, Bool.and_eq_true, List.all_eq_true] at h
  have := h.1.1.1.1.2 row (findRow_some hl).1
  simp only [Params.rowValid, Bool.and_eq_true, decide_eq_true_eq] at this
  exact ⟨this.1.1.1, this.1.1.2, this.1.2⟩

/-- A looked-up row's group has 1 to 12 bytes (R32). -/
theorem Params.valid_gsize {p : Params} (h : p.valid = true) {ti : Byte} {row : Row} (hl : p.lookup ti = some row) :
    1 ≤ p.gsize row ∧ p.gsize row ≤ Config.gmax := (Params.valid_row h hl).2

/-- No group contains a kind twice (R167). -/
theorem Params.valid_nodup {p : Params} (h : p.valid = true) {ti : Byte} {row : Row} (hl : p.lookup ti = some row) :
    row.group.Nodup := (Params.valid_row h hl).1

theorem layoutCp24_valid : layoutCp24.valid = true := by decide
theorem layoutCp56_valid : layoutCp56.valid = true := by decide

/-- Every kind's layout divides its bits, the time tags' too (R140, R150). -/
theorem Params.valid_layout {p : Params} (h : p.valid = true) (k : Kind) : (p.layouts.get k).valid = true := by
  simp only [Params.valid, Bool.and_eq_true, List.all_eq_true] at h
  have hk := h.1.2
  cases k
  case cp24 => exact layoutCp24_valid
  case cp56 => exact layoutCp56_valid
  all_goals exact hk _ (by decide)

/-- The names of a kind's fields differ. -/
theorem Params.valid_names {p : Params} (h : p.valid = true) (k : Kind) : ((p.layout k).map Prod.fst).Nodup := by
  have := Params.valid_layout h k
  simp only [KindLayout.valid, Bool.and_eq_true, decide_eq_true_eq] at this
  exact this.1.1

/-- A field lies in its element. -/
theorem Params.valid_field {p : Params} (h : p.valid = true) {k : Kind} {e : Field × BitField} (he : e ∈ p.layout k) :
    e.2.lo + e.2.width ≤ 8 * p.kindSize k := by
  have := Params.valid_layout h k
  simp only [KindLayout.valid, Bool.and_eq_true, List.all_eq_true, decide_eq_true_eq] at this
  exact this.1.2 e he

/-- Every bit of an element belongs to exactly one field (R140, R150). -/
theorem Params.valid_bit {p : Params} (h : p.valid = true) (k : Kind) {b : Nat} (hb : b < 8 * p.kindSize k) :
    ((p.layout k).filter fun e => decide (e.2.lo ≤ b ∧ b < e.2.lo + e.2.width)).length = 1 := by
  have := Params.valid_layout h k
  simp only [KindLayout.valid, Bool.and_eq_true, List.all_eq_true, beq_iff_eq] at this
  exact this.2 b (List.mem_range.mpr hb)

/-! ## The spec's own tables -/

/-- All that R6 asks of the spec's tables but the bounds on BUFSZ. -/
theorem specTables_ok :
    decide (specRegistry.map Row.ti = Config.typeIds) = true ∧ specRegistry.all specParams.rowValid = true ∧
      specParams.seqLegal 1 = true ∧ (specParams.timeTagOf 1 == some .none) = true ∧
      openKinds.all (fun k => (specLayouts.get k).valid) = true ∧ specLayouts.keepsSource = true :=
  ⟨by decide, by decide, by decide, by decide, by decide, by decide⟩

/-- The spec's tables with any BUFSZ that R6 allows are valid parameters. -/
theorem specTables_valid {n : Nat} (h1 : 1782 ≤ n) (h2 : n ≤ 4095) : (specTables n).valid = true := by
  obtain ⟨a, b, c, d, e, f⟩ := specTables_ok
  have b' : specRegistry.all (specTables n).rowValid = true := b
  have c' : (specTables n).seqLegal 1 = true := c
  have d' : ((specTables n).timeTagOf 1 == some .none) = true := d
  unfold Params.valid
  rw [Bool.and_eq_true, Bool.and_eq_true, Bool.and_eq_true, Bool.and_eq_true, Bool.and_eq_true, Bool.and_eq_true,
    Bool.and_eq_true]
  exact ⟨⟨⟨⟨⟨⟨⟨decide_eq_true h1, decide_eq_true h2⟩, a⟩, b'⟩, c'⟩, d'⟩, e⟩, f⟩

theorem specParams_valid : specParams.valid = true := specTables_valid (by decide) (by decide)

end Sys2Proof
end

