-- ==== Sys2Proof/Laws/Codec.lean ====
section
/-! SUPPORT. The codec's pieces: where the bytes of an object list lie, and one lemma per
pure decode and encode that says once what it answers. -/

namespace Sys2Proof.Machine

/-! ## Slices of a byte string -/

@[simp] theorem slice_length (s : List Byte) (a b : Nat) : (slice s a b).length = min (b - a) (s.length - a) := by
  simp [slice]

theorem byteAt_slice (s : List Byte) {a b i : Nat} (h : i < b - a) : byteAt (slice s a b) i = byteAt s (a + i) := by
  simp [byteAt, slice, h]

theorem byteAt_drop (s : List Byte) (a i : Nat) : byteAt (s.drop a) i = byteAt s (a + i) := by
  simp [byteAt]

theorem slice_drop (s : List Byte) (a b d : Nat) : slice (s.drop d) a b = slice s (d + a) (d + b) := by
  simp only [slice, List.drop_drop]
  congr 1; omega

theorem le16_drop (s : List Byte) (a d : Nat) : le16 (s.drop d) a = le16 s (d + a) := by
  rw [le16, slice_drop]; rfl

/-- Two byte strings of one length that agree at every offset are equal. -/
theorem bytes_ext {x y : List Byte} (hl : x.length = y.length) (h : ∀ i, i < x.length → byteAt x i = byteAt y i) :
    x = y := by
  apply List.ext_getElem hl
  intro i h1 h2
  simpa [byteAt, h1, h2] using h i h1

/-! ## Addresses -/

/-- `le16` (R9). -/
theorem le16_toNat {s : List Byte} {a : Nat} (h : a + 2 ≤ s.length) :
    (le16 s a).toNat = (byteAt s a).toNat + 256 * (byteAt s (a + 1)).toNat := by
  obtain ⟨x, y, hx⟩ : ∃ x y, slice s a (a + 2) = [x, y] := by
    have : (slice s a (a + 2)).length = 2 := by simp; omega
    match hs : slice s a (a + 2), this with
    | [x, y], _ => exact ⟨x, y, rfl⟩
  have h0 : byteAt s a = x := by rw [← Nat.add_zero a, ← byteAt_slice s (b := a + 2) (by omega), hx]; rfl
  have h1 : byteAt s (a + 1) = y := by rw [← byteAt_slice s (b := a + 2) (by omega), hx]; rfl
  rw [le16, hx, h0, h1]
  simp only [leNat, BitVec.toNat_ofNat]
  have := x.isLt; have := y.isLt
  omega

@[simp] theorem put16_length (v : Addr) : (put16 v).length = 2 := rfl

/-- `put16` (R9). -/
theorem put16_eq (v : Addr) : put16 v = [BitVec.ofNat 8 (v.toNat % 256), BitVec.ofNat 8 (v.toNat / 256)] := by
  simp only [put16, leBytes]
  congr 1
  apply BitVec.eq_of_toNat_eq; simp

theorem le16_put16 (v : Addr) (rest : List Byte) : le16 (put16 v ++ rest) 0 = v := by
  apply BitVec.eq_of_toNat_eq
  rw [le16_toNat (by simp), put16_eq]
  have := v.isLt
  simp [byteAt]; omega

theorem put16_le16 {s : List Byte} {a : Nat} (h : a + 2 ≤ s.length) : put16 (le16 s a) = slice s a (a + 2) := by
  apply bytes_ext
  · simp; omega
  · intro i hi
    have h2 : i < 2 := by simpa using hi
    rw [byteAt_slice _ (by omega)]
    apply BitVec.eq_of_toNat_eq
    have hv := le16_toNat h
    have := (byteAt s a).isLt; have := (byteAt s (a + 1)).isLt
    rw [put16_eq]
    match i, h2 with
    | 0, _ => simp [byteAt] at hv ⊢; omega
    | 1, _ => simp [byteAt] at hv ⊢; omega

/-! ## Object lists -/

@[simp] theorem decDiscrete_length (g n : Nat) (s : List Byte) : (decDiscrete g n s).length = n := by
  induction n generalizing s with
  | zero => rfl
  | succ n ih => simp [decDiscrete, ih]

@[simp] theorem decGroups_length (g n : Nat) (s : List Byte) : (decGroups g n s).length = n := by
  induction n generalizing s with
  | zero => rfl
  | succ n ih => simp [decGroups, ih]

/-- Object i of a discrete list (R186). -/
theorem decDiscrete_getD (g n : Nat) (s : List Byte) (i : Nat) (h : i < n) :
    (decDiscrete g n s).getD i (0, []) =
      (le16 s (i * (2 + g)), slice s (i * (2 + g) + 2) (i * (2 + g) + 2 + g)) := by
  induction n generalizing s i with
  | zero => omega
  | succ n ih =>
    cases i with
    | zero => simp [decDiscrete]
    | succ i =>
      simp only [decDiscrete, List.getD_cons_succ]
      have e : (i + 1) * (2 + g) = 2 + g + i * (2 + g) := by rw [Nat.succ_mul]; omega
      rw [ih _ _ (by omega), le16_drop, slice_drop, e]
      simp [Nat.add_assoc]

/-- Group i of a sequence (R187). -/
theorem decGroups_getD (g n : Nat) (s : List Byte) (i : Nat) (h : i < n) :
    (decGroups g n s).getD i [] = slice s (i * g) (i * g + g) := by
  induction n generalizing s i with
  | zero => omega
  | succ n ih =>
    cases i with
    | zero => simp [decGroups]
    | succ i =>
      simp only [decGroups, List.getD_cons_succ]
      have e : (i + 1) * g = g + i * g := by rw [Nat.succ_mul]; omega
      rw [ih _ _ (by omega), slice_drop, e, Nat.add_assoc]

/-- Sending a decoded discrete list back gives its bytes (R88). -/
theorem decDiscrete_flatMap (g n : Nat) (s : List Byte) (h : n * (2 + g) ≤ s.length) :
    (decDiscrete g n s).flatMap (fun o => put16 o.1 ++ o.2) = s.take (n * (2 + g)) := by
  induction n generalizing s with
  | zero => simp [decDiscrete]
  | succ n ih =>
    have hlen : n * (2 + g) ≤ (s.drop (2 + g)).length := by
      rw [List.length_drop]; rw [Nat.succ_mul] at h; omega
    simp only [decDiscrete, List.flatMap_cons]
    rw [ih _ hlen, put16_le16 (by rw [Nat.succ_mul] at h; omega)]
    have e : slice s 0 (0 + 2) ++ slice s 2 (2 + g) = s.take (2 + g) := by
      simp only [slice, List.drop_zero, Nat.zero_add, Nat.sub_zero]
      rw [Nat.add_sub_cancel_left, List.take_add]
    rw [Nat.succ_mul, Nat.add_comm (n * (2 + g)), List.take_add]
    exact congrArg (· ++ _) e

/-- Sending decoded groups back gives their bytes (R89). -/
theorem decGroups_flatten (g n : Nat) (s : List Byte) : (decGroups g n s).flatten = s.take (n * g) := by
  induction n generalizing s with
  | zero => simp [decGroups]
  | succ n ih =>
    simp only [decGroups, List.flatten_cons, ih]
    rw [Nat.succ_mul, Nat.add_comm (n * g), List.take_add]
    simp [slice]

theorem decDiscrete_mem_length {g n : Nat} {s : List Byte} (h : n * (2 + g) ≤ s.length) :
    ∀ o ∈ decDiscrete g n s, o.2.length = g := by
  induction n generalizing s with
  | zero => simp [decDiscrete]
  | succ n ih =>
    rw [Nat.succ_mul] at h
    intro o ho
    simp only [decDiscrete, List.mem_cons] at ho
    rcases ho with rfl | ho
    · simp; omega
    · exact ih (by rw [List.length_drop]; omega) o ho

theorem decGroups_mem_length {g n : Nat} {s : List Byte} (h : n * g ≤ s.length) :
    ∀ o ∈ decGroups g n s, o.length = g := by
  induction n generalizing s with
  | zero => simp [decGroups]
  | succ n ih =>
    rw [Nat.succ_mul] at h
    intro o ho
    simp only [decGroups, List.mem_cons] at ho
    rcases ho with rfl | ho
    · simp; omega
    · exact ih (by rw [List.length_drop]; omega) o ho

/-! ## Decodes -/

/-- All the decode of one type can answer (R184). -/
theorem decTyped_cases (p : Params) (ti : Byte) (sq : Bit) (num : BitVec 7) (a : Nat) (w : List Byte) :
    (w.length < 4 ∧ decTyped p ti sq num a w = .error ⟨.truncatedInput, a + w.length⟩) ∨
    (4 ≤ w.length ∧ num = 0 ∧ decTyped p ti sq num a w = .error ⟨.vsqNumberZero, a + 1⟩) ∨
    (4 ≤ w.length ∧ num ≠ 0 ∧ p.lookup ti = none ∧ decTyped p ti sq num a w = .error ⟨.unknownTypeId, a⟩) ∨
    ∃ row, 4 ≤ w.length ∧ num ≠ 0 ∧ p.lookup ti = some row ∧
      ((sq = 1 ∧ row.seqLegal = false ∧ decTyped p ti sq num a w = .error ⟨.illegalSequenceMode, a + 1⟩) ∨
      ((sq = 1 → row.seqLegal = true) ∧
        ((w.length < 4 + objsSize (p.gsize row) sq num ∧
            decTyped p ti sq num a w = .error ⟨.truncatedInput, a + w.length⟩) ∨
          (4 + objsSize (p.gsize row) sq num < w.length ∧
            decTyped p ti sq num a w = .error ⟨.lengthMismatch, a + 4 + objsSize (p.gsize row) sq num⟩) ∨
          (w.length = 4 + objsSize (p.gsize row) sq num ∧
            decTyped p ti sq num a w =
              .ok { ti := ti, sq := sq, num := num, test := cotTest (byteAt w 2), neg := cotNeg (byteAt w 2),
                    cot := cotCause (byteAt w 2), ca := byteAt w 3,
                    objs := decObjs (p.gsize row) sq num (w.drop 4) })))) := by
  unfold decTyped
  split
  · exact .inl ⟨by assumption, rfl⟩
  · rename_i h4
    split
    · exact .inr (.inl ⟨by omega, by assumption, rfl⟩)
    · rename_i hn
      cases hl : p.lookup ti with
      | none => exact .inr (.inr (.inl ⟨by omega, hn, rfl, rfl⟩))
      | some row =>
        refine .inr (.inr (.inr ⟨row, by omega, hn, rfl, ?_⟩))
        simp only
        split
        · rename_i h; exact .inl ⟨h.1, h.2, rfl⟩
        · rename_i h
          refine .inr ⟨fun h1 => ?_, ?_⟩
          · cases hs : row.seqLegal
            · exact absurd ⟨h1, hs⟩ h
            · rfl
          · split
            · exact .inl ⟨by omega, rfl⟩
            · split
              · exact .inr (.inl ⟨by omega, rfl⟩)
              · exact .inr (.inr ⟨by omega, rfl⟩)

/-- The position of an error of one type's decode lies in the region it was given, or just past it (R291). -/
theorem decTyped_pos {p : Params} {ti : Byte} {sq : Bit} {num : BitVec 7} {a : Nat} {w : List Byte} {e : CodecErr}
    (h : decTyped p ti sq num a w = .error e) : e.pos ≤ a + w.length := by
  rcases decTyped_cases p ti sq num a w with ⟨_, h'⟩ | ⟨_, _, h'⟩ | ⟨_, _, _, h'⟩ | ⟨_, _, _, _, hc⟩
  · rw [h'] at h; cases h; exact Nat.le_refl _
  · rw [h'] at h; cases h; simp only; omega
  · rw [h'] at h; cases h; simp only; omega
  · rcases hc with ⟨_, _, h'⟩ | ⟨_, ⟨_, h'⟩ | ⟨_, h'⟩ | ⟨_, h'⟩⟩ <;> rw [h'] at h <;> cases h <;> simp only <;> omega

/-! ## Encodes -/

theorem length_flatMap_const {α : Type} (f : α → List Byte) (n : Nat) (l : List α) (h : ∀ x ∈ l, (f x).length = n) :
    (l.flatMap f).length = l.length * n := by
  induction l with
  | nil => simp
  | cons x l ih =>
    rw [List.flatMap_cons, List.length_append, h x (by simp), ih fun y hy => h y (by simp [hy]), List.length_cons,
      Nat.succ_mul, Nat.add_comm]

@[simp] theorem slotDiscreteBytes_length (g : Nat) (sl : Slot) (h : g ≤ Config.gmax) :
    (slotDiscreteBytes g sl).length = 2 + g := by
  simp [slotDiscreteBytes, h]

@[simp] theorem slotGroupBytes_length (g : Nat) (sl : Slot) (h : g ≤ Config.gmax) :
    (slotGroupBytes g sl).length = g := by
  simp [slotGroupBytes, h]

/-- The size of an encoded object list (R99). -/
theorem encObjs_length (g : Nat) (sq : Bit) (num : BitVec 7) (v : Vector Slot Config.nslot) (hg : g ≤ Config.gmax) :
    (encObjs g sq num v).length = objsSize g sq num := by
  have hn : num.toNat ≤ Config.nslot := by have := num.isLt; simp [Config.nslot]; omega
  have hl : (v.toList.take num.toNat).length = num.toNat := by simp [hn]
  unfold encObjs objsSize
  split
  · rw [length_flatMap_const _ (2 + g) _ fun x _ => slotDiscreteBytes_length g x hg, hl]
  · rw [List.length_append, put16_length, length_flatMap_const _ g _ fun x _ => slotGroupBytes_length g x hg, hl]

/-- All `enc_asdu` can answer (R190). -/
theorem encAsdu_cases (p : Params) (r : Regs) (v : Vector Slot Config.nslot) :
    (vsqNum r.vsq = 0 ∧ encAsdu p r v = .error ⟨.vsqNumberZero, 0⟩) ∨
    (vsqNum r.vsq ≠ 0 ∧ p.lookup r.ti = none ∧ encAsdu p r v = .error ⟨.unknownTypeId, 0⟩) ∨
    (∃ row, vsqNum r.vsq ≠ 0 ∧ p.lookup r.ti = some row ∧ vsqSq r.vsq = 1 ∧ row.seqLegal = false ∧
      encAsdu p r v = .error ⟨.illegalSequenceMode, 0⟩) ∨
    (∃ row, vsqNum r.vsq ≠ 0 ∧ p.lookup r.ti = some row ∧ (vsqSq r.vsq = 1 → row.seqLegal = true) ∧
      encAsdu p r v =
        .ok ([r.ti, r.vsq, r.cotb, r.ca] ++ encObjs (p.gsize row) (vsqSq r.vsq) (vsqNum r.vsq) v)) := by
  unfold encAsdu
  split
  · exact .inl ⟨by assumption, rfl⟩
  · rename_i hn
    cases hl : p.lookup r.ti with
    | none => exact .inr (.inl ⟨hn, rfl, rfl⟩)
    | some row =>
      simp only
      split
      · rename_i h; exact .inr (.inr (.inl ⟨row, hn, rfl, h.1, h.2, rfl⟩))
      · rename_i h
        refine .inr (.inr (.inr ⟨row, hn, rfl, fun h1 => ?_, rfl⟩))
        cases hs : row.seqLegal
        · exact absurd ⟨h1, hs⟩ h
        · rfl

/-- An object list is never longer than 1778 bytes: 127 objects of 2 + 12 (R99). -/
theorem objsSize_le {g : Nat} (sq : Bit) (num : BitVec 7) (hg : g ≤ Config.gmax) : objsSize g sq num ≤ 1778 := by
  have hn : num.toNat ≤ 127 := by have := num.isLt; omega
  have hg' : g ≤ 12 := hg
  unfold objsSize
  split
  · calc num.toNat * (2 + g) ≤ 127 * (2 + 12) := Nat.mul_le_mul hn (by omega)
      _ = 1778 := by norm_num
  · have : num.toNat * g ≤ 127 * 12 := Nat.mul_le_mul hn hg'
    omega

/-- All `enc_frame` can answer (R121): the kinds 1, 2 and 3 with their bytes, or an error. -/
theorem encFrame_length {p : Params} {cfg : Cfg} {r : Regs} {v : Vector Slot Config.nslot} {b : List Byte} {c : Bit}
    (h : encFrame p cfg r v = .ok (b, c)) : b.length ≤ 261 := by
  have var : ∀ x, encVariable cfg r x = .ok (b, c) → b.length ≤ 261 := by
    intro x hp
    unfold encVariable at hp
    split at hp
    · cases hp
    · split at hp
      · cases hp
      · simp only [Except.ok.injEq, Prod.mk.injEq] at hp
        rw [← hp.1]; simp; omega
  unfold encFrame at h
  split at h
  · cases h; simp
  · split at h
    · cases h
    · cases h; simp
  · split at h
    · split at h
      · cases h
      · exact var _ h
    · exact var _ h
  · cases h

end Sys2Proof.Machine
end

