-- ==== Sys2Proof/Laws/Link.lean ====
section
/-! SUPPORT. The link-frame codec's pieces: the checksum as a sum of bytes of WIRE, what `csgen` and `enc_frame` answer, and
the object store after an object list was loaded. -/

namespace Sys2Proof.Machine

/-! ## Checksums -/

/-- `cssum` (R114). -/
theorem cssum_toNat (bs : List Byte) : (cssum bs).toNat = (bs.map BitVec.toNat).sum % 256 := by
  induction bs with
  | nil => rfl
  | cons b bs ih => simp only [cssum, BitVec.toNat_add, ih, List.map_cons, List.sum_cons]; omega

/-- The sum over bytes of WIRE is `cssum` of the same bytes as a string. -/
theorem sumAt_eq (s : State) (p n : Nat) (l : List Byte) (hl : l.length = n)
    (h : ∀ i, i < n → byteAt l i = s.byte (p + i)) : s.sumAt p n = (cssum l).toNat := by
  rw [cssum_toNat, State.sumAt]
  congr 2
  apply List.ext_getElem
  · simp [hl]
  · intro i h1 h2
    have hi : i < n := by simpa using h1
    have := h i hi
    simp only [List.getElem_map, List.getElem_range]
    rw [← this]
    have h3 : i < l.length := by omega
    simp [byteAt, h3]

/-- CSERR over bytes of WIRE is `cscheck` of the same bytes as a string (R114). -/
theorem cserrAt_eq (s : State) (c : Byte) (p n : Nat) (l : List Byte) (hl : l.length = n)
    (h : ∀ i, i < n → byteAt l i = s.byte (p + i)) : s.cserrAt c p n = cscheck s.cfg.csmode c l := by
  unfold State.cserrAt cscheck
  rw [sumAt_eq s p n l hl h]
  simp only [BitVec.toNat_inj]

/-- All `csgen` can answer (R123). -/
theorem csgen_cases (m : BitVec 2) (g : Bit) (cs : Byte) (body : List Byte) :
    (g = 1 ∧ csgen m g cs body = .ok (cssum body, 0)) ∨
    (g ≠ 1 ∧ m = 2 ∧ cs ≠ cssum body ∧ csgen m g cs body = .error ⟨.checksumMismatch, 0⟩) ∨
    (g ≠ 1 ∧ (m = 2 → cs = cssum body) ∧ csgen m g cs body = .ok (cs, cscheck m cs body)) := by
  unfold csgen
  split
  · exact .inl ⟨by assumption, rfl⟩
  · rename_i hg
    split
    · rename_i h
      refine .inr (.inl ⟨hg, h.1, fun hc => ?_, rfl⟩)
      have h2 := h.2
      simp [cscheck, hc] at h2
    · rename_i h
      refine .inr (.inr ⟨hg, fun hm => ?_, rfl⟩)
      by_contra hc
      exact h ⟨hm, by simp [cscheck, hm, hc]⟩

/-! ## The frame encoder by KIND (R121) -/

theorem encFrame_single {p : Params} {cfg : Cfg} {r : Regs} {v : Vector Slot Config.nslot} (hk : r.kind = 1) :
    encFrame p cfg r v = .ok ([singleByte r.sc], 0) := by
  unfold encFrame; rw [hk]; rfl

theorem encFrame_fixed {p : Params} {cfg : Cfg} {r : Regs} {v : Vector Slot Config.nslot} (hk : r.kind = 2) :
    encFrame p cfg r v = match csgen cfg.csmode cfg.csgen r.cs [r.ctrl, r.laddr] with
      | .error e => .error e
      | .ok (cs, cserr) => .ok ([0x10, r.ctrl, r.laddr, cs, 0x16], cserr) := by
  unfold encFrame; rw [hk]; rfl

theorem encFrame_variable {p : Params} {cfg : Cfg} {r : Regs} {v : Vector Slot Config.nslot} (hk : r.kind = 3)
    (ha : r.hasasdu ≠ 1) : encFrame p cfg r v = encVariable cfg r [] := by
  unfold encFrame
  rw [show r.kind.toNat = 3 by rw [hk]; rfl]
  simp only [ha, if_false]

theorem encFrame_asdu {p : Params} {cfg : Cfg} {r : Regs} {v : Vector Slot Config.nslot} (hk : r.kind = 3)
    (ha : r.hasasdu = 1) :
    encFrame p cfg r v = match encAsdu p r v with
      | .error e => .error e
      | .ok b => encVariable cfg r b := by
  unfold encFrame
  rw [show r.kind.toNat = 3 by rw [hk]; rfl]
  exact if_pos ha

/-! ## A loaded object list -/

theorem byteAt_ge {l : List Byte} {j : Nat} (h : l.length ≤ j) : byteAt l j = 0 := by
  simp [byteAt, List.getElem?_eq_none h]

theorem objsSize_eq_listBytes (g : Nat) (sq : Bit) (n : BitVec 7) : objsSize g sq n = listBytes g sq n.toNat := rfl

theorem mul_add_le {i n g : Nat} (h : i < n) : i * g + g ≤ n * g := by
  rw [← Nat.succ_mul]; exact Nat.mul_le_mul_right g h

/-- The object store after the ASDU of a region of WIRE was loaded (R186, R187, R188, R273). -/
theorem objects_loaded {s t : State} {a g : Nat} {sq : Bit} {num : BitVec 7} {region : List Byte} {d : Asdu}
    (hreg : ∀ i, i < region.length → byteAt region i = s.byte (a + i))
    (hlen : region.length = 4 + objsSize g sq num)
    (ht : t.slots = storeObjs s.slots d) (hn : d.num = num) (hd : d.objs = decObjs g sq num (region.drop 4)) :
    ObjectsLoaded s t a g sq num.toNat := by
  intro i h
  have hr' : ∀ i, 4 + i < region.length → byteAt (region.drop 4) i = s.byte (a + 4 + i) := by
    intro i hi; rw [byteAt_drop, hreg _ hi, Nat.add_assoc]
  simp only [ht]
  split
  · rename_i hi
    have hst := storeObjs_of_lt s.slots d i h (by rw [hn]; exact hi)
    rw [hd] at hst
    simp only [hst]
    by_cases hs : sq = 0
    · subst hs
      have hsz : region.length = 4 + num.toNat * (2 + g) := by rw [hlen, objsSize, if_pos rfl]
      have hst := mul_add_le (g := 2 + g) hi
      have hw : i * (2 + g) + 2 ≤ (region.drop 4).length := by rw [List.length_drop]; omega
      simp only [decObjs, if_true, Objs.addr, Objs.group, decDiscrete_getD _ _ _ _ hi, State.objectAddr, groupOffset,
        State.word16]
      refine ⟨?_, fun j hj => ?_⟩
      · rw [le16_toNat hw, hr' _ (by omega), hr' _ (by omega)]; simp only [Nat.add_assoc]
      · rw [padGroup_getElem]
        split
        · rw [byteAt_slice _ (by omega), hr' _ (by omega)]; simp only [Nat.add_assoc]
        · have : (slice (List.drop 4 region) (i * (2 + g) + 2) (i * (2 + g) + 2 + g)).length ≤ j := by
            rw [slice_length]; omega
          exact byteAt_ge this
    · have hs1 : sq = 1 := (show ∀ b : Bit, ¬ b = 0 → b = 1 by decide) sq hs
      subst hs1
      have hsz : region.length = 4 + (2 + num.toNat * g) := by rw [hlen, objsSize, if_neg (by decide)]
      have hst := mul_add_le (g := g) hi
      have hw : 0 + 2 ≤ (region.drop 4).length := by rw [List.length_drop]; omega
      simp only [decObjs, if_neg (show ¬ ((1 : Bit) = 0) by decide), Objs.addr, Objs.group, decGroups_getD _ _ _ _ hi,
        State.objectAddr, groupOffset, State.word16, ioa]
      refine ⟨?_, fun j hj => ?_⟩
      · rw [BitVec.toNat_add, le16_toNat hw, hr' _ (by omega), hr' _ (by omega), BitVec.toNat_ofNat]
        simp only [Nat.add_zero, Nat.zero_add]; omega
      · rw [padGroup_getElem]
        split
        · rw [byteAt_slice _ (by omega), byteAt_drop, hr' _ (by omega),
            show a + 4 + (2 + (i * g + j)) = a + 6 + i * g + j by omega]
        · have : (slice (List.drop 2 (List.drop 4 region)) (i * g) (i * g + g)).length ≤ j := by
            rw [slice_length]; omega
          exact byteAt_ge this
  · exact storeObjs_of_ge s.slots d i h (by rw [hn]; omega)

end Sys2Proof.Machine
end

