-- ==== Sys2Proof/Laws/PerInstr.lean ====
section
/-! SUPPORT. A statement about every instruction as a row of spec/opcode_table.json: the word the encoder writes for it
carries the row's fixed bits, the row's `match` under its `mask` (spec/30_encoding.md R94), when the instruction is well
formed under the registry whose table it is (R220). One lemma per constructor. -/

namespace Sys2Proof.Laws.TableRow

open Sys2Proof.Machine

/-- The fixed bits of a row: each run of bits hi to lo of the word has the value. -/
def fixedBits : Instr → List (Nat × Nat × Nat)
  | .ack => [(7, 0, 229)]
  | .nack => [(7, 0, 162)]
  | .fixedFrame => [(7, 0, 16)]
  | .variableFrame => [(7, 0, 104)]
  | .mSpNa1 _ _ => [(7, 0, 1)]
  | .mSpTa1 _ => [(7, 0, 2), (15, 15, 0)]
  | .mDpNa1 _ _ => [(7, 0, 3)]
  | .mDpTa1 _ => [(7, 0, 4), (15, 15, 0)]
  | .mStNa1 _ _ => [(7, 0, 5)]
  | .mStTa1 _ => [(7, 0, 6), (15, 15, 0)]
  | .mBoNa1 _ _ => [(7, 0, 7)]
  | .mBoTa1 _ => [(7, 0, 8), (15, 15, 0)]
  | .mMeNa1 _ _ => [(7, 0, 9)]
  | .mMeTa1 _ => [(7, 0, 10), (15, 15, 0)]
  | .mMeNb1 _ _ => [(7, 0, 11)]
  | .mMeTb1 _ => [(7, 0, 12), (15, 15, 0)]
  | .mMeNc1 _ _ => [(7, 0, 13)]
  | .mMeTc1 _ => [(7, 0, 14), (15, 15, 0)]
  | .mItNa1 _ _ => [(7, 0, 15)]
  | .mItTa1 _ => [(7, 0, 16), (15, 15, 0)]
  | .mEpTa1 _ => [(7, 0, 17), (15, 15, 0)]
  | .mEpTb1 _ => [(7, 0, 18), (15, 15, 0)]
  | .mEpTc1 _ => [(7, 0, 19), (15, 15, 0)]
  | .mPsNa1 _ _ => [(7, 0, 20)]
  | .mMeNd1 _ _ => [(7, 0, 21)]
  | .mSpTb1 _ => [(7, 0, 30), (15, 15, 0)]
  | .mDpTb1 _ => [(7, 0, 31), (15, 15, 0)]
  | .mStTb1 _ => [(7, 0, 32), (15, 15, 0)]
  | .mBoTb1 _ => [(7, 0, 33), (15, 15, 0)]
  | .mMeTd1 _ => [(7, 0, 34), (15, 15, 0)]
  | .mMeTe1 _ => [(7, 0, 35), (15, 15, 0)]
  | .mMeTf1 _ => [(7, 0, 36), (15, 15, 0)]
  | .mItTb1 _ => [(7, 0, 37), (15, 15, 0)]
  | .mEpTd1 _ => [(7, 0, 38), (15, 15, 0)]
  | .mEpTe1 _ => [(7, 0, 39), (15, 15, 0)]
  | .mEpTf1 _ => [(7, 0, 40), (15, 15, 0)]
  | .cScNa1 _ => [(7, 0, 45), (15, 15, 0)]
  | .cDcNa1 _ => [(7, 0, 46), (15, 15, 0)]
  | .cRcNa1 _ => [(7, 0, 47), (15, 15, 0)]
  | .cSeNa1 _ => [(7, 0, 48), (15, 15, 0)]
  | .cSeNb1 _ => [(7, 0, 49), (15, 15, 0)]
  | .cSeNc1 _ => [(7, 0, 50), (15, 15, 0)]
  | .cBoNa1 _ => [(7, 0, 51), (15, 15, 0)]
  | .mEiNa1 _ => [(7, 0, 70), (15, 15, 0)]
  | .decFrame => [(1, 0, 0)]
  | .encFrame => [(1, 0, 1)]
  | .decAsdu => [(1, 0, 2)]
  | .encAsdu => [(1, 0, 3)]

/-- The encoded word of a well-formed i carries the fixed bits of its row. -/
def Statement (i : Instr) : Prop :=
  i.wellFormed specRegistry = true →
    ∀ f ∈ fixedBits i, getBits (leNat (encode i)) f.2.1 (f.1 - f.2.1 + 1) = f.2.2

/-- The low byte of an ASDU-level halfword is the type identifier. -/
theorem lowByte (ti v : Byte) : getBits (leNat [ti, v]) 0 8 = ti.toNat := by
  have := ti.isLt
  simp only [getBits, leNat]; omega

/-- Bit 15 of an ASDU-level halfword is SQ. -/
theorem sqBit (ti v : Byte) (h : vsqSq v = 0) : getBits (leNat [ti, v]) 15 1 = 0 := by
  have h' : v.toNat / 128 = 0 := by
    have := congrArg BitVec.toNat h
    have hv := v.isLt
    simp [vsqSq, Nat.shiftRight_eq_div_pow] at this; omega
  have := ti.isLt
  simp only [getBits, leNat]; omega

/-- A row whose SQ bit is free: the fixed bits are the type identifier. -/
theorem free {ti v : Byte} {n : Nat} (h : ti.toNat = n) :
    ∀ f ∈ [((7, 0, n) : Nat × Nat × Nat)], getBits (leNat [ti, v]) f.2.1 (f.1 - f.2.1 + 1) = f.2.2 := by
  intro f hf
  rw [List.mem_singleton] at hf; subst hf
  exact (lowByte ti v).trans h

/-- A row whose SQ bit is 0, of a sequence-illegal type: the fixed bits are the type identifier and that bit. -/
theorem zero {ti v : Byte} {row : Row} {n : Nat} (h : ti.toNat = n) (hl : findRow ti specRegistry = some row)
    (hs : row.seqLegal = false) (hw : wordOk specRegistry ti v = true) :
    ∀ f ∈ [((7, 0, n) : Nat × Nat × Nat), (15, 15, 0)], getBits (leNat [ti, v]) f.2.1 (f.1 - f.2.1 + 1) = f.2.2 := by
  have hq : vsqSq v = 0 := by
    simp only [wordOk, hl, hs, Bool.or_false, Bool.and_eq_true, beq_iff_eq] at hw; exact hw.2
  intro f hf
  rcases List.mem_cons.mp hf with rfl | hf
  · exact (lowByte ti _).trans h
  · rw [List.mem_singleton] at hf; subst hf; exact sqBit ti v hq

theorem ack : Statement .ack := by unfold Statement; decide
theorem nack : Statement .nack := by unfold Statement; decide
theorem fixedFrame : Statement .fixedFrame := by unfold Statement; decide
theorem variableFrame : Statement .variableFrame := by unfold Statement; decide
theorem mSpNa1 (sq : Bit) (num : BitVec 7) : Statement (.mSpNa1 sq num) := fun _ => free rfl
theorem mSpTa1 (vsq : Byte) : Statement (.mSpTa1 vsq) :=
  fun h => zero (ti := 2) (row := rowMSpTa1) rfl rfl rfl h
theorem mDpNa1 (sq : Bit) (num : BitVec 7) : Statement (.mDpNa1 sq num) := fun _ => free rfl
theorem mDpTa1 (vsq : Byte) : Statement (.mDpTa1 vsq) :=
  fun h => zero (ti := 4) (row := rowMDpTa1) rfl rfl rfl h
theorem mStNa1 (sq : Bit) (num : BitVec 7) : Statement (.mStNa1 sq num) := fun _ => free rfl
theorem mStTa1 (vsq : Byte) : Statement (.mStTa1 vsq) :=
  fun h => zero (ti := 6) (row := rowMStTa1) rfl rfl rfl h
theorem mBoNa1 (sq : Bit) (num : BitVec 7) : Statement (.mBoNa1 sq num) := fun _ => free rfl
theorem mBoTa1 (vsq : Byte) : Statement (.mBoTa1 vsq) :=
  fun h => zero (ti := 8) (row := rowMBoTa1) rfl rfl rfl h
theorem mMeNa1 (sq : Bit) (num : BitVec 7) : Statement (.mMeNa1 sq num) := fun _ => free rfl
theorem mMeTa1 (vsq : Byte) : Statement (.mMeTa1 vsq) :=
  fun h => zero (ti := 10) (row := rowMMeTa1) rfl rfl rfl h
theorem mMeNb1 (sq : Bit) (num : BitVec 7) : Statement (.mMeNb1 sq num) := fun _ => free rfl
theorem mMeTb1 (vsq : Byte) : Statement (.mMeTb1 vsq) :=
  fun h => zero (ti := 12) (row := rowMMeTb1) rfl rfl rfl h
theorem mMeNc1 (sq : Bit) (num : BitVec 7) : Statement (.mMeNc1 sq num) := fun _ => free rfl
theorem mMeTc1 (vsq : Byte) : Statement (.mMeTc1 vsq) :=
  fun h => zero (ti := 14) (row := rowMMeTc1) rfl rfl rfl h
theorem mItNa1 (sq : Bit) (num : BitVec 7) : Statement (.mItNa1 sq num) := fun _ => free rfl
theorem mItTa1 (vsq : Byte) : Statement (.mItTa1 vsq) :=
  fun h => zero (ti := 16) (row := rowMItTa1) rfl rfl rfl h
theorem mEpTa1 (vsq : Byte) : Statement (.mEpTa1 vsq) :=
  fun h => zero (ti := 17) (row := rowMEpTa1) rfl rfl rfl h
theorem mEpTb1 (vsq : Byte) : Statement (.mEpTb1 vsq) :=
  fun h => zero (ti := 18) (row := rowMEpTb1) rfl rfl rfl h
theorem mEpTc1 (vsq : Byte) : Statement (.mEpTc1 vsq) :=
  fun h => zero (ti := 19) (row := rowMEpTc1) rfl rfl rfl h
theorem mPsNa1 (sq : Bit) (num : BitVec 7) : Statement (.mPsNa1 sq num) := fun _ => free rfl
theorem mMeNd1 (sq : Bit) (num : BitVec 7) : Statement (.mMeNd1 sq num) := fun _ => free rfl
theorem mSpTb1 (vsq : Byte) : Statement (.mSpTb1 vsq) :=
  fun h => zero (ti := 30) (row := rowMSpTb1) rfl rfl rfl h
theorem mDpTb1 (vsq : Byte) : Statement (.mDpTb1 vsq) :=
  fun h => zero (ti := 31) (row := rowMDpTb1) rfl rfl rfl h
theorem mStTb1 (vsq : Byte) : Statement (.mStTb1 vsq) :=
  fun h => zero (ti := 32) (row := rowMStTb1) rfl rfl rfl h
theorem mBoTb1 (vsq : Byte) : Statement (.mBoTb1 vsq) :=
  fun h => zero (ti := 33) (row := rowMBoTb1) rfl rfl rfl h
theorem mMeTd1 (vsq : Byte) : Statement (.mMeTd1 vsq) :=
  fun h => zero (ti := 34) (row := rowMMeTd1) rfl rfl rfl h
theorem mMeTe1 (vsq : Byte) : Statement (.mMeTe1 vsq) :=
  fun h => zero (ti := 35) (row := rowMMeTe1) rfl rfl rfl h
theorem mMeTf1 (vsq : Byte) : Statement (.mMeTf1 vsq) :=
  fun h => zero (ti := 36) (row := rowMMeTf1) rfl rfl rfl h
theorem mItTb1 (vsq : Byte) : Statement (.mItTb1 vsq) :=
  fun h => zero (ti := 37) (row := rowMItTb1) rfl rfl rfl h
theorem mEpTd1 (vsq : Byte) : Statement (.mEpTd1 vsq) :=
  fun h => zero (ti := 38) (row := rowMEpTd1) rfl rfl rfl h
theorem mEpTe1 (vsq : Byte) : Statement (.mEpTe1 vsq) :=
  fun h => zero (ti := 39) (row := rowMEpTe1) rfl rfl rfl h
theorem mEpTf1 (vsq : Byte) : Statement (.mEpTf1 vsq) :=
  fun h => zero (ti := 40) (row := rowMEpTf1) rfl rfl rfl h
theorem cScNa1 (vsq : Byte) : Statement (.cScNa1 vsq) :=
  fun h => zero (ti := 45) (row := rowCScNa1) rfl rfl rfl h
theorem cDcNa1 (vsq : Byte) : Statement (.cDcNa1 vsq) :=
  fun h => zero (ti := 46) (row := rowCDcNa1) rfl rfl rfl h
theorem cRcNa1 (vsq : Byte) : Statement (.cRcNa1 vsq) :=
  fun h => zero (ti := 47) (row := rowCRcNa1) rfl rfl rfl h
theorem cSeNa1 (vsq : Byte) : Statement (.cSeNa1 vsq) :=
  fun h => zero (ti := 48) (row := rowCSeNa1) rfl rfl rfl h
theorem cSeNb1 (vsq : Byte) : Statement (.cSeNb1 vsq) :=
  fun h => zero (ti := 49) (row := rowCSeNb1) rfl rfl rfl h
theorem cSeNc1 (vsq : Byte) : Statement (.cSeNc1 vsq) :=
  fun h => zero (ti := 50) (row := rowCSeNc1) rfl rfl rfl h
theorem cBoNa1 (vsq : Byte) : Statement (.cBoNa1 vsq) :=
  fun h => zero (ti := 51) (row := rowCBoNa1) rfl rfl rfl h
theorem mEiNa1 (vsq : Byte) : Statement (.mEiNa1 vsq) :=
  fun h => zero (ti := 70) (row := rowMEiNa1) rfl rfl rfl h
theorem decFrame : Statement .decFrame := by unfold Statement; decide
theorem encFrame : Statement .encFrame := by unfold Statement; decide
theorem decAsdu : Statement .decAsdu := by unfold Statement; decide
theorem encAsdu : Statement .encAsdu := by unfold Statement; decide

end Sys2Proof.Laws.TableRow
end

