-- ==== Sys2Proof/Machine/Names.lean ====
section
/-! DEFINITION. The two enumerations the spec gives for information only (spec/40_link_frames.md R126 and
spec/43_asdu_dispatch.md R195, both [from general knowledge, not in source]): what a function code and a cause of
transmission are called. No rule depends on them and no operation reads them (R127, R183). -/

namespace Sys2Proof.Machine

/-- The name of a function code under PRM (R126). -/
def functionCodeName (prm : Bit) (fc : BitVec 4) : String :=
  if prm = 1 then
    match fc.toNat with
    | 0 => "reset of remote link"
    | 1 => "reset of user process"
    | 2 => "test function for link"
    | 3 => "user data, confirm expected"
    | 4 => "user data, no reply expected"
    | 8 => "expected response specifies access demand"
    | 9 => "request status of link"
    | 10 => "request user data class 1"
    | 11 => "request user data class 2"
    | 6 | 7 | 13 | 14 | 15 => "reserved for special use"
    | _ => "reserved"
  else
    match fc.toNat with
    | 0 => "ACK, positive acknowledgement"
    | 1 => "NACK, message not accepted, link busy"
    | 8 => "user data"
    | 9 => "NACK, requested data not available"
    | 11 => "status of link or access demand"
    | 14 => "link service not functioning"
    | 15 => "link service not implemented"
    | 6 | 7 | 13 => "reserved for special use"
    | _ => "reserved"

/-- The name of a cause of transmission (R195). -/
def causeName (cot : BitVec 6) : String :=
  match cot.toNat with
  | 0 => "not used"
  | 1 => "periodic, cyclic"
  | 2 => "background scan"
  | 3 => "spontaneous"
  | 4 => "initialized"
  | 5 => "request or requested"
  | 6 => "activation"
  | 7 => "activation confirmation"
  | 8 => "deactivation"
  | 9 => "deactivation confirmation"
  | 10 => "activation termination"
  | 11 => "return information caused by a remote command"
  | 12 => "return information caused by a local command"
  | 13 => "file transfer"
  | 20 => "interrogated by station interrogation"
  | 37 => "requested by general counter request"
  | 44 => "unknown type identification"
  | 45 => "unknown cause of transmission"
  | 46 => "unknown common address of ASDU"
  | 47 => "unknown information object address"
  | n =>
    if n < 20 then "reserved"
    else if n < 37 then "interrogated by a group interrogation"
    else if n < 42 then "requested by a group counter request"
    else if n < 44 then "reserved"
    else "for special use"

end Sys2Proof.Machine
end

