-- ==== Sys2Proof/Tests/Slice0.lean ====
section
/-! SUPPORT. Tests on fixed values: ill-formed terms that `wellFormed` refuses, words written out bit by bit from the
encodings of spec/30_encoding.md, one step per instruction on vectors of spec/95_test_vectors.md (the vector is named in
each docstring), and for each obligation with hypotheses a state and operands that meet them. -/

namespace Sys2Proof.Machine.Tests

/-! ## Helpers -/

/-- The reset state with the bytes bs in WIRE from offset 0, WLEN their number, and a checksum policy. -/
def wireState (mode : BitVec 2) (bs : List Byte) : State :=
  { State.reset with wire := Memory.writeBytes State.reset.par.bufsz [] 0 bs, wlen := BitVec.ofNat 12 bs.length,
                     cfg := { csmode := mode, csgen := 0 } }

/-- The reset state with given scalar registers and CFG. -/
def recState (cfg : Cfg) (r : Regs) : State := { State.reset with cfg := cfg, regs := r }

/-- A step's outcome is a next state of which p holds. -/
def nextIs (o : Host.Outcome State Fault Refusal) (p : State → Bool) : Bool :=
  match o with
  | .next t => p t
  | .fault _ | .refused _ => false

/-- STATUS of an operation that succeeded with CSERR 0. -/
def okStatus : Status := { st := 1, err := 0, cserr := 0, errpos := 0 }

/-- STATUS of an operation that failed. -/
def errStatus (code : BitVec 4) (p : BitVec 12) : Status :=
  { st := 2, err := code, cserr := if code = 8 then 1 else 0, errpos := p }

/-- Slot i holds an address and a group that starts with the bytes bs, 0 above them. -/
def slotIs (t : State) (i : Nat) (a : Addr) (bs : List Byte) : Bool :=
  match t.slots[i]? with
  | some sl => sl.addr == a && sl.eg.toList == bs ++ List.replicate (12 - bs.length) 0
  | none => false

/-- The instruction decodes the bare ASDU bs, one object with an address, into fields. -/
def loads (i : Instr) (bs : List Byte) (a : Addr) (fields : List (Kind × Field × Nat)) : Bool :=
  nextIs (exec i (wireState 1 bs)) fun t =>
    t.status == okStatus && t.regs.kind == 4 && t.regs.cotb == byteAt bs 2 && t.regs.ca == byteAt bs 3 &&
      slotIs t 0 a (bs.drop 6) && fields.all fun x => fldRead t 0 x.1 x.2.1 == some x.2.2

/-- The instruction decodes the bare ASDU bs, a sequence of two from base FFFF, into two groups. -/
def loadsTwo (i : Instr) (bs : List Byte) (g h : List Byte) : Bool :=
  nextIs (exec i (wireState 1 bs)) fun t =>
    t.status == okStatus && slotIs t 0 0xFFFF g && slotIs t 1 0 h && t.slots[2] == slotZero

/-- The first n bytes of WIRE. -/
def wireIs (t : State) (bs : List Byte) : Bool :=
  t.wlen.toNat == bs.length && Memory.readBytes t.wire 0 bs.length == bs

/-! ## Well-formedness -/

theorem test_wellFormed_refuses_num_zero :
    Instr.wellFormed specRegistry (.mSpNa1 1 0) = false ∧ Instr.wellFormed specRegistry (.mSpTa1 0x00) = false ∧
      Instr.wellFormed specRegistry (.mEiNa1 0x00) = false := by decide

/-- SQ = 1 on a sequence-illegal type (R94). -/
theorem test_wellFormed_refuses_sequence :
    Instr.wellFormed specRegistry (.mSpTa1 0x81) = false ∧ Instr.wellFormed specRegistry (.cBoNa1 0xFF) = false := by
  decide

/-- A type with no row in the registry. -/
theorem test_wellFormed_refuses_no_row :
    Instr.wellFormed [] (.mSpNa1 0 1) = false ∧ Instr.wellFormed [rowMSpNa1] (.mSpTa1 0x01) = false := by decide

theorem test_wellFormed_accepts :
    Instr.wellFormed specRegistry (.mSpNa1 1 127) = true ∧ Instr.wellFormed specRegistry (.mEiNa1 0x01) = true ∧
      Instr.wellFormed specRegistry .ack = true := by decide

/-! ## Decoding: words written out from the encodings -/

theorem test_decode_ack : decode specRegistry .link [0b11100101] = .ok .ack := by decide
theorem test_decode_nack : decode specRegistry .link [0b10100010] = .ok .nack := by decide
theorem test_decode_fixedFrame : decode specRegistry .link [0b00010000, 0x49, 0x01, 0x4A, 0x16] = .ok .fixedFrame := by
  decide
theorem test_decode_variableFrame : decode specRegistry .link [0b01101000, 2, 2] = .ok .variableFrame := by decide
theorem test_decode_link_rejects :
    decode specRegistry .link [0b11100100] = .error .unknownFrameStart ∧
      decode specRegistry .link [] = .error .truncatedInput := by decide
theorem test_decode_decFrame : decode specRegistry .cmd [0b00] = .ok .decFrame := by decide
theorem test_decode_encFrame : decode specRegistry .cmd [0b01] = .ok .encFrame := by decide
theorem test_decode_decAsdu : decode specRegistry .cmd [0b10] = .ok .decAsdu := by decide
theorem test_decode_encAsdu : decode specRegistry .cmd [0b11] = .ok .encAsdu := by decide
theorem test_decode_unknown_type :
    decode specRegistry .asdu [0b00010110, 0b00000001] = .error .unknownTypeId ∧
      decode specRegistry .asdu [0b01000110] = .error .truncatedInput := by decide
theorem test_decode_mSpNa1 : decode specRegistry .asdu [0b00000001, 0b11111110] = .ok (.mSpNa1 1 126) ∧
    decode specRegistry .asdu [0b00000001, 0b00000001] = .ok (.mSpNa1 0 1) := by decide
theorem test_decode_mSpTa1 : decode specRegistry .asdu [0b00000010, 0b01111110] = .ok (.mSpTa1 0x7E) ∧
    decode specRegistry .asdu [0b00000010, 0b11111110] = .error .illegalSequenceMode := by decide
theorem test_decode_mDpNa1 : decode specRegistry .asdu [0b00000011, 0b11111110] = .ok (.mDpNa1 1 126) ∧
    decode specRegistry .asdu [0b00000011, 0b00000001] = .ok (.mDpNa1 0 1) := by decide
theorem test_decode_mDpTa1 : decode specRegistry .asdu [0b00000100, 0b01111110] = .ok (.mDpTa1 0x7E) ∧
    decode specRegistry .asdu [0b00000100, 0b11111110] = .error .illegalSequenceMode := by decide
theorem test_decode_mStNa1 : decode specRegistry .asdu [0b00000101, 0b11111110] = .ok (.mStNa1 1 126) ∧
    decode specRegistry .asdu [0b00000101, 0b00000001] = .ok (.mStNa1 0 1) := by decide
theorem test_decode_mStTa1 : decode specRegistry .asdu [0b00000110, 0b01111110] = .ok (.mStTa1 0x7E) ∧
    decode specRegistry .asdu [0b00000110, 0b11111110] = .error .illegalSequenceMode := by decide
theorem test_decode_mBoNa1 : decode specRegistry .asdu [0b00000111, 0b11111110] = .ok (.mBoNa1 1 126) ∧
    decode specRegistry .asdu [0b00000111, 0b00000001] = .ok (.mBoNa1 0 1) := by decide
theorem test_decode_mBoTa1 : decode specRegistry .asdu [0b00001000, 0b01111110] = .ok (.mBoTa1 0x7E) ∧
    decode specRegistry .asdu [0b00001000, 0b11111110] = .error .illegalSequenceMode := by decide
theorem test_decode_mMeNa1 : decode specRegistry .asdu [0b00001001, 0b11111110] = .ok (.mMeNa1 1 126) ∧
    decode specRegistry .asdu [0b00001001, 0b00000001] = .ok (.mMeNa1 0 1) := by decide
theorem test_decode_mMeTa1 : decode specRegistry .asdu [0b00001010, 0b01111110] = .ok (.mMeTa1 0x7E) ∧
    decode specRegistry .asdu [0b00001010, 0b11111110] = .error .illegalSequenceMode := by decide
theorem test_decode_mMeNb1 : decode specRegistry .asdu [0b00001011, 0b11111110] = .ok (.mMeNb1 1 126) ∧
    decode specRegistry .asdu [0b00001011, 0b00000001] = .ok (.mMeNb1 0 1) := by decide
theorem test_decode_mMeTb1 : decode specRegistry .asdu [0b00001100, 0b01111110] = .ok (.mMeTb1 0x7E) ∧
    decode specRegistry .asdu [0b00001100, 0b11111110] = .error .illegalSequenceMode := by decide
theorem test_decode_mMeNc1 : decode specRegistry .asdu [0b00001101, 0b11111110] = .ok (.mMeNc1 1 126) ∧
    decode specRegistry .asdu [0b00001101, 0b00000001] = .ok (.mMeNc1 0 1) := by decide
theorem test_decode_mMeTc1 : decode specRegistry .asdu [0b00001110, 0b01111110] = .ok (.mMeTc1 0x7E) ∧
    decode specRegistry .asdu [0b00001110, 0b11111110] = .error .illegalSequenceMode := by decide
theorem test_decode_mItNa1 : decode specRegistry .asdu [0b00001111, 0b11111110] = .ok (.mItNa1 1 126) ∧
    decode specRegistry .asdu [0b00001111, 0b00000001] = .ok (.mItNa1 0 1) := by decide
theorem test_decode_mItTa1 : decode specRegistry .asdu [0b00010000, 0b01111110] = .ok (.mItTa1 0x7E) ∧
    decode specRegistry .asdu [0b00010000, 0b11111110] = .error .illegalSequenceMode := by decide
theorem test_decode_mEpTa1 : decode specRegistry .asdu [0b00010001, 0b01111110] = .ok (.mEpTa1 0x7E) ∧
    decode specRegistry .asdu [0b00010001, 0b11111110] = .error .illegalSequenceMode := by decide
theorem test_decode_mEpTb1 : decode specRegistry .asdu [0b00010010, 0b01111110] = .ok (.mEpTb1 0x7E) ∧
    decode specRegistry .asdu [0b00010010, 0b11111110] = .error .illegalSequenceMode := by decide
theorem test_decode_mEpTc1 : decode specRegistry .asdu [0b00010011, 0b01111110] = .ok (.mEpTc1 0x7E) ∧
    decode specRegistry .asdu [0b00010011, 0b11111110] = .error .illegalSequenceMode := by decide
theorem test_decode_mPsNa1 : decode specRegistry .asdu [0b00010100, 0b11111110] = .ok (.mPsNa1 1 126) ∧
    decode specRegistry .asdu [0b00010100, 0b00000001] = .ok (.mPsNa1 0 1) := by decide
theorem test_decode_mMeNd1 : decode specRegistry .asdu [0b00010101, 0b11111110] = .ok (.mMeNd1 1 126) ∧
    decode specRegistry .asdu [0b00010101, 0b00000001] = .ok (.mMeNd1 0 1) := by decide
theorem test_decode_mSpTb1 : decode specRegistry .asdu [0b00011110, 0b01111110] = .ok (.mSpTb1 0x7E) ∧
    decode specRegistry .asdu [0b00011110, 0b11111110] = .error .illegalSequenceMode := by decide
theorem test_decode_mDpTb1 : decode specRegistry .asdu [0b00011111, 0b01111110] = .ok (.mDpTb1 0x7E) ∧
    decode specRegistry .asdu [0b00011111, 0b11111110] = .error .illegalSequenceMode := by decide
theorem test_decode_mStTb1 : decode specRegistry .asdu [0b00100000, 0b01111110] = .ok (.mStTb1 0x7E) ∧
    decode specRegistry .asdu [0b00100000, 0b11111110] = .error .illegalSequenceMode := by decide
theorem test_decode_mBoTb1 : decode specRegistry .asdu [0b00100001, 0b01111110] = .ok (.mBoTb1 0x7E) ∧
    decode specRegistry .asdu [0b00100001, 0b11111110] = .error .illegalSequenceMode := by decide
theorem test_decode_mMeTd1 : decode specRegistry .asdu [0b00100010, 0b01111110] = .ok (.mMeTd1 0x7E) ∧
    decode specRegistry .asdu [0b00100010, 0b11111110] = .error .illegalSequenceMode := by decide
theorem test_decode_mMeTe1 : decode specRegistry .asdu [0b00100011, 0b01111110] = .ok (.mMeTe1 0x7E) ∧
    decode specRegistry .asdu [0b00100011, 0b11111110] = .error .illegalSequenceMode := by decide
theorem test_decode_mMeTf1 : decode specRegistry .asdu [0b00100100, 0b01111110] = .ok (.mMeTf1 0x7E) ∧
    decode specRegistry .asdu [0b00100100, 0b11111110] = .error .illegalSequenceMode := by decide
theorem test_decode_mItTb1 : decode specRegistry .asdu [0b00100101, 0b01111110] = .ok (.mItTb1 0x7E) ∧
    decode specRegistry .asdu [0b00100101, 0b11111110] = .error .illegalSequenceMode := by decide
theorem test_decode_mEpTd1 : decode specRegistry .asdu [0b00100110, 0b01111110] = .ok (.mEpTd1 0x7E) ∧
    decode specRegistry .asdu [0b00100110, 0b11111110] = .error .illegalSequenceMode := by decide
theorem test_decode_mEpTe1 : decode specRegistry .asdu [0b00100111, 0b01111110] = .ok (.mEpTe1 0x7E) ∧
    decode specRegistry .asdu [0b00100111, 0b11111110] = .error .illegalSequenceMode := by decide
theorem test_decode_mEpTf1 : decode specRegistry .asdu [0b00101000, 0b01111110] = .ok (.mEpTf1 0x7E) ∧
    decode specRegistry .asdu [0b00101000, 0b11111110] = .error .illegalSequenceMode := by decide
theorem test_decode_cScNa1 : decode specRegistry .asdu [0b00101101, 0b01111110] = .ok (.cScNa1 0x7E) ∧
    decode specRegistry .asdu [0b00101101, 0b11111110] = .error .illegalSequenceMode := by decide
theorem test_decode_cDcNa1 : decode specRegistry .asdu [0b00101110, 0b01111110] = .ok (.cDcNa1 0x7E) ∧
    decode specRegistry .asdu [0b00101110, 0b11111110] = .error .illegalSequenceMode := by decide
theorem test_decode_cRcNa1 : decode specRegistry .asdu [0b00101111, 0b01111110] = .ok (.cRcNa1 0x7E) ∧
    decode specRegistry .asdu [0b00101111, 0b11111110] = .error .illegalSequenceMode := by decide
theorem test_decode_cSeNa1 : decode specRegistry .asdu [0b00110000, 0b01111110] = .ok (.cSeNa1 0x7E) ∧
    decode specRegistry .asdu [0b00110000, 0b11111110] = .error .illegalSequenceMode := by decide
theorem test_decode_cSeNb1 : decode specRegistry .asdu [0b00110001, 0b01111110] = .ok (.cSeNb1 0x7E) ∧
    decode specRegistry .asdu [0b00110001, 0b11111110] = .error .illegalSequenceMode := by decide
theorem test_decode_cSeNc1 : decode specRegistry .asdu [0b00110010, 0b01111110] = .ok (.cSeNc1 0x7E) ∧
    decode specRegistry .asdu [0b00110010, 0b11111110] = .error .illegalSequenceMode := by decide
theorem test_decode_cBoNa1 : decode specRegistry .asdu [0b00110011, 0b01111110] = .ok (.cBoNa1 0x7E) ∧
    decode specRegistry .asdu [0b00110011, 0b11111110] = .error .illegalSequenceMode := by decide
theorem test_decode_mEiNa1 : decode specRegistry .asdu [0b01000110, 0b01111110] = .ok (.mEiNa1 0x7E) ∧
    decode specRegistry .asdu [0b01000110, 0b11111110] = .error .illegalSequenceMode := by decide

/-! ## One step per type -/

/-- M_SP_NA_1, V105 (R221). -/
theorem test_mSpNa1_fields :
    loads (.mSpNa1 0 1) [0x01, 0x01, 0xFF, 0xFF, 0xFF, 0xFF, 0xFE] 0xFFFF
      [(.siq, .iv, 1), (.siq, .nt, 1), (.siq, .sb, 1), (.siq, .bl, 1), (.siq, .res, 7), (.siq, .spi, 0)] = true := by
        decide
/-- M_SP_TA_1, V106 (R222). -/
theorem test_mSpTa1_fields :
    loads (.mSpTa1 1) [0x02, 0x01, 0xFF, 0xFF, 0xFF, 0xFF, 0xFE, 0xFF, 0xFF, 0xFF] 0xFFFF
      [(.siq, .iv, 1), (.siq, .nt, 1), (.siq, .sb, 1), (.siq, .bl, 1), (.siq, .res, 7), (.siq, .spi, 0),
      (.cp24, .ms, 65535), (.cp24, .iv, 1), (.cp24, .sub, 1), (.cp24, .min, 63)] = true := by decide
/-- M_DP_NA_1, V107 (R223). -/
theorem test_mDpNa1_fields :
    loads (.mDpNa1 0 1) [0x03, 0x01, 0xFF, 0xFF, 0xFF, 0xFF, 0xFD] 0xFFFF
      [(.diq, .iv, 1), (.diq, .nt, 1), (.diq, .sb, 1), (.diq, .bl, 1), (.diq, .res, 3), (.diq, .dpi, 1)] = true := by
        decide
/-- M_DP_TA_1, V108 (R224). -/
theorem test_mDpTa1_fields :
    loads (.mDpTa1 1) [0x04, 0x01, 0xFF, 0xFF, 0xFF, 0xFF, 0xFD, 0xFF, 0xFF, 0xFF] 0xFFFF
      [(.diq, .iv, 1), (.diq, .nt, 1), (.diq, .sb, 1), (.diq, .bl, 1), (.diq, .res, 3), (.diq, .dpi, 1),
      (.cp24, .ms, 65535), (.cp24, .iv, 1), (.cp24, .sub, 1), (.cp24, .min, 63)] = true := by decide
/-- M_ST_NA_1, V109 (R225). -/
theorem test_mStNa1_fields :
    loads (.mStNa1 0 1) [0x05, 0x01, 0xFF, 0xFF, 0xFF, 0xFF, 0xBF, 0xFF] 0xFFFF
      [(.vti, .t, 1), (.vti, .val, 63), (.qds, .iv, 1), (.qds, .nt, 1), (.qds, .sb, 1), (.qds, .bl, 1),
      (.qds, .res, 7), (.qds, .ov, 1)] = true := by decide
/-- M_ST_TA_1, V110 (R226). -/
theorem test_mStTa1_fields :
    loads (.mStTa1 1) [0x06, 0x01, 0xFF, 0xFF, 0xFF, 0xFF, 0xBF, 0xFF, 0xFF, 0xFF, 0xFF] 0xFFFF
      [(.vti, .t, 1), (.vti, .val, 63), (.qds, .iv, 1), (.qds, .nt, 1), (.qds, .sb, 1), (.qds, .bl, 1),
      (.qds, .res, 7), (.qds, .ov, 1), (.cp24, .ms, 65535), (.cp24, .iv, 1), (.cp24, .sub, 1),
      (.cp24, .min, 63)] = true := by decide
/-- M_BO_NA_1, V111 (R227). -/
theorem test_mBoNa1_fields :
    loads (.mBoNa1 0 1) [0x07, 0x01, 0xFF, 0xFF, 0xFF, 0xFF, 0xFF, 0xFF, 0xFF, 0xFF, 0xFF] 0xFFFF
      [(.bsi, .bits, 0xFFFFFFFF), (.qds, .iv, 1), (.qds, .nt, 1), (.qds, .sb, 1), (.qds, .bl, 1), (.qds,
      .res, 7), (.qds, .ov, 1)] = true := by decide
/-- M_BO_TA_1, V112 (R228). -/
theorem test_mBoTa1_fields :
    loads (.mBoTa1 1) [0x08, 0x01, 0xFF, 0xFF, 0xFF, 0xFF, 0xFF, 0xFF, 0xFF, 0xFF, 0xFF, 0xFF, 0xFF, 0xFF] 0xFFFF
      [(.bsi, .bits, 0xFFFFFFFF), (.qds, .iv, 1), (.qds, .nt, 1), (.qds, .sb, 1), (.qds, .bl, 1), (.qds,
      .res, 7), (.qds, .ov, 1), (.cp24, .ms, 65535), (.cp24, .iv, 1), (.cp24, .sub, 1), (.cp24, .min,
      63)] = true := by decide
/-- M_ME_NA_1, V113 (R229). -/
theorem test_mMeNa1_fields :
    loads (.mMeNa1 0 1) [0x09, 0x01, 0xFF, 0xFF, 0xFF, 0xFF, 0x00, 0x80, 0xFF] 0xFFFF
      [(.nva, .raw, 0x8000), (.qds, .iv, 1), (.qds, .nt, 1), (.qds, .sb, 1), (.qds, .bl, 1), (.qds, .res,
      7), (.qds, .ov, 1)] = true := by decide
/-- M_ME_TA_1, V114 (R230). -/
theorem test_mMeTa1_fields :
    loads (.mMeTa1 1) [0x0A, 0x01, 0xFF, 0xFF, 0xFF, 0xFF, 0x00, 0x80, 0xFF, 0xFF, 0xFF, 0xFF] 0xFFFF
      [(.nva, .raw, 0x8000), (.qds, .iv, 1), (.qds, .nt, 1), (.qds, .sb, 1), (.qds, .bl, 1), (.qds, .res,
      7), (.qds, .ov, 1), (.cp24, .ms, 65535), (.cp24, .iv, 1), (.cp24, .sub, 1), (.cp24, .min, 63)] = true := by decide
/-- M_ME_NB_1, V115 (R231). -/
theorem test_mMeNb1_fields :
    loads (.mMeNb1 0 1) [0x0B, 0x01, 0xFF, 0xFF, 0xFF, 0xFF, 0x00, 0x80, 0xFF] 0xFFFF
      [(.sva, .raw, 0x8000), (.qds, .iv, 1), (.qds, .nt, 1), (.qds, .sb, 1), (.qds, .bl, 1), (.qds, .res,
      7), (.qds, .ov, 1)] = true := by decide
/-- M_ME_TB_1, V116 (R232). -/
theorem test_mMeTb1_fields :
    loads (.mMeTb1 1) [0x0C, 0x01, 0xFF, 0xFF, 0xFF, 0xFF, 0x00, 0x80, 0xFF, 0xFF, 0xFF, 0xFF] 0xFFFF
      [(.sva, .raw, 0x8000), (.qds, .iv, 1), (.qds, .nt, 1), (.qds, .sb, 1), (.qds, .bl, 1), (.qds, .res,
      7), (.qds, .ov, 1), (.cp24, .ms, 65535), (.cp24, .iv, 1), (.cp24, .sub, 1), (.cp24, .min, 63)] = true := by decide
/-- M_ME_NC_1, V117 (R233). -/
theorem test_mMeNc1_fields :
    loads (.mMeNc1 0 1) [0x0D, 0x01, 0xFF, 0xFF, 0xFF, 0xFF, 0x01, 0x00, 0xC0, 0xFF, 0xFF] 0xFFFF
      [(.r32, .raw, 0xFFC00001), (.qds, .iv, 1), (.qds, .nt, 1), (.qds, .sb, 1), (.qds, .bl, 1), (.qds,
      .res, 7), (.qds, .ov, 1)] = true := by decide
/-- M_ME_TC_1, V118 (R234). -/
theorem test_mMeTc1_fields :
    loads (.mMeTc1 1) [0x0E, 0x01, 0xFF, 0xFF, 0xFF, 0xFF, 0x01, 0x00, 0xC0, 0xFF, 0xFF, 0xFF, 0xFF, 0xFF] 0xFFFF
      [(.r32, .raw, 0xFFC00001), (.qds, .iv, 1), (.qds, .nt, 1), (.qds, .sb, 1), (.qds, .bl, 1), (.qds,
      .res, 7), (.qds, .ov, 1), (.cp24, .ms, 65535), (.cp24, .iv, 1), (.cp24, .sub, 1), (.cp24, .min,
      63)] = true := by decide
/-- M_IT_NA_1, V119 (R235). -/
theorem test_mItNa1_fields :
    loads (.mItNa1 0 1) [0x0F, 0x01, 0xFF, 0xFF, 0xFF, 0xFF, 0x00, 0x00, 0x00, 0x80, 0xFF] 0xFFFF
      [(.bcr, .cnt, 0x80000000), (.bcr, .iv, 1), (.bcr, .ca, 1), (.bcr, .cy, 1), (.bcr, .sqn, 31)] = true := by decide
/-- M_IT_TA_1, V120 (R236). -/
theorem test_mItTa1_fields :
    loads (.mItTa1 1) [0x10, 0x01, 0xFF, 0xFF, 0xFF, 0xFF, 0x00, 0x00, 0x00, 0x80, 0xFF, 0xFF, 0xFF, 0xFF] 0xFFFF
      [(.bcr, .cnt, 0x80000000), (.bcr, .iv, 1), (.bcr, .ca, 1), (.bcr, .cy, 1), (.bcr, .sqn, 31), (.cp24,
      .ms, 65535), (.cp24, .iv, 1), (.cp24, .sub, 1), (.cp24, .min, 63)] = true := by decide
/-- M_EP_TA_1, V121 (R237). -/
theorem test_mEpTa1_fields :
    loads (.mEpTa1 1) [0x11, 0x01, 0xFF, 0xFF, 0xFF, 0xFF, 0xFF, 0xFF, 0xFF, 0xFF, 0xFF, 0xFF] 0xFFFF
      [(.sep, .iv, 1), (.sep, .nt, 1), (.sep, .sb, 1), (.sep, .bl, 1), (.sep, .ei, 1), (.sep, .res, 1),
      (.sep, .es, 3), (.cp16, .ms, 65535), (.cp24, .ms, 65535), (.cp24, .iv, 1), (.cp24, .sub, 1),
      (.cp24, .min, 63)] = true := by decide
/-- M_EP_TB_1, V122 (R238). -/
theorem test_mEpTb1_fields :
    loads (.mEpTb1 1) [0x12, 0x01, 0xFF, 0xFF, 0xFF, 0xFF, 0xFF, 0xFF, 0xFF, 0xFF, 0xFF, 0xFF, 0xFF] 0xFFFF
      [(.spe, .res, 3), (.spe, .srd, 1), (.spe, .sie, 1), (.spe, .sl3, 1), (.spe, .sl2, 1), (.spe, .sl1,
      1), (.spe, .gs, 1), (.qdp, .iv, 1), (.qdp, .nt, 1), (.qdp, .sb, 1), (.qdp, .bl, 1), (.qdp, .ei,
      1), (.qdp, .res, 7), (.cp16, .ms, 65535), (.cp24, .ms, 65535), (.cp24, .iv, 1), (.cp24, .sub,
      1), (.cp24, .min, 63)] = true := by decide
/-- M_EP_TC_1, V123 (R239). -/
theorem test_mEpTc1_fields :
    loads (.mEpTc1 1) [0x13, 0x01, 0xFF, 0xFF, 0xFF, 0xFF, 0xFF, 0xFF, 0xFF, 0xFF, 0xFF, 0xFF, 0xFF] 0xFFFF
      [(.oci, .res, 15), (.oci, .cl3, 1), (.oci, .cl2, 1), (.oci, .cl1, 1), (.oci, .gc, 1), (.qdp, .iv, 1),
      (.qdp, .nt, 1), (.qdp, .sb, 1), (.qdp, .bl, 1), (.qdp, .ei, 1), (.qdp, .res, 7), (.cp16, .ms,
      65535), (.cp24, .ms, 65535), (.cp24, .iv, 1), (.cp24, .sub, 1), (.cp24, .min, 63)] = true := by decide
/-- M_PS_NA_1, V124 (R240). -/
theorem test_mPsNa1_fields :
    loads (.mPsNa1 0 1) [0x14, 0x01, 0xFF, 0xFF, 0xFF, 0xFF, 0xFF, 0xFF, 0xFF, 0xFF, 0xFF] 0xFFFF
      [(.scd, .st, 0xFFFF), (.scd, .cd, 0xFFFF), (.qds, .iv, 1), (.qds, .nt, 1), (.qds, .sb, 1), (.qds,
      .bl, 1), (.qds, .res, 7), (.qds, .ov, 1)] = true := by decide
/-- M_ME_ND_1, V125 (R241). -/
theorem test_mMeNd1_fields :
    loads (.mMeNd1 0 1) [0x15, 0x01, 0xFF, 0xFF, 0xFF, 0xFF, 0x00, 0x80] 0xFFFF
      [(.nva, .raw, 0x8000)] = true := by decide
/-- M_SP_TB_1, V126 (R242). -/
theorem test_mSpTb1_fields :
    loads (.mSpTb1 1) [0x1E, 0x01, 0xFF, 0xFF, 0xFF, 0xFF, 0xFE, 0xFF, 0xFF, 0xFF, 0xFF, 0xFF, 0xFF, 0xFF] 0xFFFF
      [(.siq, .iv, 1), (.siq, .nt, 1), (.siq, .sb, 1), (.siq, .bl, 1), (.siq, .res, 7), (.siq, .spi, 0),
      (.cp56, .ms, 65535), (.cp56, .iv, 1), (.cp56, .sub, 1), (.cp56, .min, 63), (.cp56, .su, 1),
      (.cp56, .res1, 3), (.cp56, .hour, 31), (.cp56, .dow, 7), (.cp56, .day, 31), (.cp56, .res2, 15),
      (.cp56, .mon, 15), (.cp56, .res3, 1), (.cp56, .year, 127)] = true := by decide
/-- M_DP_TB_1, V127 (R243). -/
theorem test_mDpTb1_fields :
    loads (.mDpTb1 1) [0x1F, 0x01, 0xFF, 0xFF, 0xFF, 0xFF, 0xFD, 0xFF, 0xFF, 0xFF, 0xFF, 0xFF, 0xFF, 0xFF] 0xFFFF
      [(.diq, .iv, 1), (.diq, .nt, 1), (.diq, .sb, 1), (.diq, .bl, 1), (.diq, .res, 3), (.diq, .dpi, 1),
      (.cp56, .ms, 65535), (.cp56, .iv, 1), (.cp56, .sub, 1), (.cp56, .min, 63), (.cp56, .su, 1),
      (.cp56, .res1, 3), (.cp56, .hour, 31), (.cp56, .dow, 7), (.cp56, .day, 31), (.cp56, .res2, 15),
      (.cp56, .mon, 15), (.cp56, .res3, 1), (.cp56, .year, 127)] = true := by decide
/-- M_ST_TB_1, V128 (R244). -/
theorem test_mStTb1_fields :
    loads (.mStTb1 1) [0x20, 0x01, 0xFF, 0xFF, 0xFF, 0xFF, 0xBF, 0xFF, 0xFF, 0xFF, 0xFF, 0xFF, 0xFF, 0xFF, 0xFF] 0xFFFF
      [(.vti, .t, 1), (.vti, .val, 63), (.qds, .iv, 1), (.qds, .nt, 1), (.qds, .sb, 1), (.qds, .bl, 1),
      (.qds, .res, 7), (.qds, .ov, 1), (.cp56, .ms, 65535), (.cp56, .iv, 1), (.cp56, .sub, 1),
      (.cp56, .min, 63), (.cp56, .su, 1), (.cp56, .res1, 3), (.cp56, .hour, 31), (.cp56, .dow, 7),
      (.cp56, .day, 31), (.cp56, .res2, 15), (.cp56, .mon, 15), (.cp56, .res3, 1), (.cp56, .year,
      127)] = true := by decide
/-- M_BO_TB_1, V129 (R245). -/
theorem test_mBoTb1_fields :
    loads (.mBoTb1 1) [0x21, 0x01, 0xFF, 0xFF, 0xFF, 0xFF, 0xFF, 0xFF, 0xFF, 0xFF, 0xFF, 0xFF, 0xFF, 0xFF, 0xFF, 0xFF,
      0xFF, 0xFF] 0xFFFF
      [(.bsi, .bits, 0xFFFFFFFF), (.qds, .iv, 1), (.qds, .nt, 1), (.qds, .sb, 1), (.qds, .bl, 1), (.qds,
      .res, 7), (.qds, .ov, 1), (.cp56, .ms, 65535), (.cp56, .iv, 1), (.cp56, .sub, 1), (.cp56, .min,
      63), (.cp56, .su, 1), (.cp56, .res1, 3), (.cp56, .hour, 31), (.cp56, .dow, 7), (.cp56, .day,
      31), (.cp56, .res2, 15), (.cp56, .mon, 15), (.cp56, .res3, 1), (.cp56, .year, 127)] = true := by decide
/-- M_ME_TD_1, V130 (R246). -/
theorem test_mMeTd1_fields :
    loads (.mMeTd1 1) [0x22, 0x01, 0xFF, 0xFF, 0xFF, 0xFF, 0x00, 0x80, 0xFF, 0xFF, 0xFF, 0xFF, 0xFF, 0xFF, 0xFF,
      0xFF] 0xFFFF
      [(.nva, .raw, 0x8000), (.qds, .iv, 1), (.qds, .nt, 1), (.qds, .sb, 1), (.qds, .bl, 1), (.qds, .res,
      7), (.qds, .ov, 1), (.cp56, .ms, 65535), (.cp56, .iv, 1), (.cp56, .sub, 1), (.cp56, .min, 63),
      (.cp56, .su, 1), (.cp56, .res1, 3), (.cp56, .hour, 31), (.cp56, .dow, 7), (.cp56, .day, 31),
      (.cp56, .res2, 15), (.cp56, .mon, 15), (.cp56, .res3, 1), (.cp56, .year, 127)] = true := by decide
/-- M_ME_TE_1, V131 (R247). -/
theorem test_mMeTe1_fields :
    loads (.mMeTe1 1) [0x23, 0x01, 0xFF, 0xFF, 0xFF, 0xFF, 0x00, 0x80, 0xFF, 0xFF, 0xFF, 0xFF, 0xFF, 0xFF, 0xFF,
      0xFF] 0xFFFF
      [(.sva, .raw, 0x8000), (.qds, .iv, 1), (.qds, .nt, 1), (.qds, .sb, 1), (.qds, .bl, 1), (.qds, .res,
      7), (.qds, .ov, 1), (.cp56, .ms, 65535), (.cp56, .iv, 1), (.cp56, .sub, 1), (.cp56, .min, 63),
      (.cp56, .su, 1), (.cp56, .res1, 3), (.cp56, .hour, 31), (.cp56, .dow, 7), (.cp56, .day, 31),
      (.cp56, .res2, 15), (.cp56, .mon, 15), (.cp56, .res3, 1), (.cp56, .year, 127)] = true := by decide
/-- M_ME_TF_1, V132 (R248). -/
theorem test_mMeTf1_fields :
    loads (.mMeTf1 1) [0x24, 0x01, 0xFF, 0xFF, 0xFF, 0xFF, 0x01, 0x00, 0xC0, 0xFF, 0xFF, 0xFF, 0xFF, 0xFF, 0xFF, 0xFF,
      0xFF, 0xFF] 0xFFFF
      [(.r32, .raw, 0xFFC00001), (.qds, .iv, 1), (.qds, .nt, 1), (.qds, .sb, 1), (.qds, .bl, 1), (.qds,
      .res, 7), (.qds, .ov, 1), (.cp56, .ms, 65535), (.cp56, .iv, 1), (.cp56, .sub, 1), (.cp56, .min,
      63), (.cp56, .su, 1), (.cp56, .res1, 3), (.cp56, .hour, 31), (.cp56, .dow, 7), (.cp56, .day,
      31), (.cp56, .res2, 15), (.cp56, .mon, 15), (.cp56, .res3, 1), (.cp56, .year, 127)] = true := by decide
/-- M_IT_TB_1, V133 (R249). -/
theorem test_mItTb1_fields :
    loads (.mItTb1 1) [0x25, 0x01, 0xFF, 0xFF, 0xFF, 0xFF, 0x00, 0x00, 0x00, 0x80, 0xFF, 0xFF, 0xFF, 0xFF, 0xFF, 0xFF,
      0xFF, 0xFF] 0xFFFF
      [(.bcr, .cnt, 0x80000000), (.bcr, .iv, 1), (.bcr, .ca, 1), (.bcr, .cy, 1), (.bcr, .sqn, 31), (.cp56,
      .ms, 65535), (.cp56, .iv, 1), (.cp56, .sub, 1), (.cp56, .min, 63), (.cp56, .su, 1), (.cp56,
      .res1, 3), (.cp56, .hour, 31), (.cp56, .dow, 7), (.cp56, .day, 31), (.cp56, .res2, 15), (.cp56,
      .mon, 15), (.cp56, .res3, 1), (.cp56, .year, 127)] = true := by decide
/-- M_EP_TD_1, V134 (R250). -/
theorem test_mEpTd1_fields :
    loads (.mEpTd1 1) [0x26, 0x01, 0xFF, 0xFF, 0xFF, 0xFF, 0xFF, 0xFF, 0xFF, 0xFF, 0xFF, 0xFF, 0xFF, 0xFF, 0xFF,
      0xFF] 0xFFFF
      [(.sep, .iv, 1), (.sep, .nt, 1), (.sep, .sb, 1), (.sep, .bl, 1), (.sep, .ei, 1), (.sep, .res, 1),
      (.sep, .es, 3), (.cp16, .ms, 65535), (.cp56, .ms, 65535), (.cp56, .iv, 1), (.cp56, .sub, 1),
      (.cp56, .min, 63), (.cp56, .su, 1), (.cp56, .res1, 3), (.cp56, .hour, 31), (.cp56, .dow, 7),
      (.cp56, .day, 31), (.cp56, .res2, 15), (.cp56, .mon, 15), (.cp56, .res3, 1), (.cp56, .year,
      127)] = true := by decide
/-- M_EP_TE_1, V135 (R251). -/
theorem test_mEpTe1_fields :
    loads (.mEpTe1 1) [0x27, 0x01, 0xFF, 0xFF, 0xFF, 0xFF, 0xFF, 0xFF, 0xFF, 0xFF, 0xFF, 0xFF, 0xFF, 0xFF, 0xFF, 0xFF,
      0xFF] 0xFFFF
      [(.spe, .res, 3), (.spe, .srd, 1), (.spe, .sie, 1), (.spe, .sl3, 1), (.spe, .sl2, 1), (.spe, .sl1,
      1), (.spe, .gs, 1), (.qdp, .iv, 1), (.qdp, .nt, 1), (.qdp, .sb, 1), (.qdp, .bl, 1), (.qdp, .ei,
      1), (.qdp, .res, 7), (.cp16, .ms, 65535), (.cp56, .ms, 65535), (.cp56, .iv, 1), (.cp56, .sub,
      1), (.cp56, .min, 63), (.cp56, .su, 1), (.cp56, .res1, 3), (.cp56, .hour, 31), (.cp56, .dow,
      7), (.cp56, .day, 31), (.cp56, .res2, 15), (.cp56, .mon, 15), (.cp56, .res3, 1), (.cp56, .year,
      127)] = true := by decide
/-- M_EP_TF_1, V136 (R252). -/
theorem test_mEpTf1_fields :
    loads (.mEpTf1 1) [0x28, 0x01, 0xFF, 0xFF, 0xFF, 0xFF, 0xFF, 0xFF, 0xFF, 0xFF, 0xFF, 0xFF, 0xFF, 0xFF, 0xFF, 0xFF,
      0xFF] 0xFFFF
      [(.oci, .res, 15), (.oci, .cl3, 1), (.oci, .cl2, 1), (.oci, .cl1, 1), (.oci, .gc, 1), (.qdp, .iv, 1),
      (.qdp, .nt, 1), (.qdp, .sb, 1), (.qdp, .bl, 1), (.qdp, .ei, 1), (.qdp, .res, 7), (.cp16, .ms,
      65535), (.cp56, .ms, 65535), (.cp56, .iv, 1), (.cp56, .sub, 1), (.cp56, .min, 63), (.cp56, .su,
      1), (.cp56, .res1, 3), (.cp56, .hour, 31), (.cp56, .dow, 7), (.cp56, .day, 31), (.cp56, .res2,
      15), (.cp56, .mon, 15), (.cp56, .res3, 1), (.cp56, .year, 127)] = true := by decide
/-- C_SC_NA_1, V137 (R253). -/
theorem test_cScNa1_fields :
    loads (.cScNa1 1) [0x2D, 0x01, 0xFF, 0xFF, 0xFF, 0xFF, 0x7E] 0xFFFF
      [(.sco, .se, 0), (.sco, .qu, 31), (.sco, .res, 1), (.sco, .scs, 0)] = true := by decide
/-- C_DC_NA_1, V138 (R254). -/
theorem test_cDcNa1_fields :
    loads (.cDcNa1 1) [0x2E, 0x01, 0xFF, 0xFF, 0xFF, 0xFF, 0x7F] 0xFFFF
      [(.dco, .se, 0), (.dco, .qu, 31), (.dco, .dcs, 3)] = true := by decide
/-- C_RC_NA_1, V139 (R255). -/
theorem test_cRcNa1_fields :
    loads (.cRcNa1 1) [0x2F, 0x01, 0xFF, 0xFF, 0xFF, 0xFF, 0xFF] 0xFFFF
      [(.rco, .se, 1), (.rco, .qu, 31), (.rco, .rcs, 3)] = true := by decide
/-- C_SE_NA_1, V140 (R256). -/
theorem test_cSeNa1_fields :
    loads (.cSeNa1 1) [0x30, 0x01, 0xFF, 0xFF, 0xFF, 0xFF, 0x00, 0x80, 0x7F] 0xFFFF
      [(.nva, .raw, 0x8000), (.qos, .se, 0), (.qos, .ql, 127)] = true := by decide
/-- C_SE_NB_1, V141 (R257). -/
theorem test_cSeNb1_fields :
    loads (.cSeNb1 1) [0x31, 0x01, 0xFF, 0xFF, 0xFF, 0xFF, 0x00, 0x80, 0x7F] 0xFFFF
      [(.sva, .raw, 0x8000), (.qos, .se, 0), (.qos, .ql, 127)] = true := by decide
/-- C_SE_NC_1, V142 (R258). -/
theorem test_cSeNc1_fields :
    loads (.cSeNc1 1) [0x32, 0x01, 0xFF, 0xFF, 0xFF, 0xFF, 0x01, 0x00, 0xC0, 0xFF, 0x7F] 0xFFFF
      [(.r32, .raw, 0xFFC00001), (.qos, .se, 0), (.qos, .ql, 127)] = true := by decide
/-- C_BO_NA_1, V143 (R259). -/
theorem test_cBoNa1_fields :
    loads (.cBoNa1 1) [0x33, 0x01, 0xFF, 0xFF, 0xFF, 0xFF, 0xFF, 0xFF, 0xFF, 0xFF] 0xFFFF
      [(.bsi, .bits, 0xFFFFFFFF)] = true := by decide
/-- M_EI_NA_1, V144 (R260). -/
theorem test_mEiNa1_fields :
    loads (.mEiNa1 1) [0x46, 0x01, 0xFF, 0xFF, 0xFF, 0xFF, 0xFF] 0xFFFF
      [(.coi, .lpc, 1), (.coi, .cause, 127)] = true := by decide
/-- M_SP_NA_1 with SQ = 1, V145 (R221, R188): the second address wraps. -/
theorem test_mSpNa1_sequence :
    loadsTwo (.mSpNa1 1 2) [0x01, 0x82, 0x03, 0x01, 0xFF, 0xFF, 0x01, 0xFE]
      [0x01] [0xFE] = true := by decide
/-- M_DP_NA_1 with SQ = 1, V146 (R223, R188): the second address wraps. -/
theorem test_mDpNa1_sequence :
    loadsTwo (.mDpNa1 1 2) [0x03, 0x82, 0x03, 0x01, 0xFF, 0xFF, 0x02, 0xFD]
      [0x02] [0xFD] = true := by decide
/-- M_ST_NA_1 with SQ = 1, V147 (R225, R188): the second address wraps. -/
theorem test_mStNa1_sequence :
    loadsTwo (.mStNa1 1 2) [0x05, 0x82, 0x03, 0x01, 0xFF, 0xFF, 0x05, 0x00, 0xBF, 0xFF]
      [0x05, 0x00] [0xBF, 0xFF] = true := by decide
/-- M_BO_NA_1 with SQ = 1, V148 (R227, R188): the second address wraps. -/
theorem test_mBoNa1_sequence :
    loadsTwo (.mBoNa1 1 2) [0x07, 0x82, 0x03, 0x01, 0xFF, 0xFF, 0x01, 0x00, 0x00, 0x80, 0x00, 0xFF, 0xFF, 0xFF, 0xFF,
      0xFF]
      [0x01, 0x00, 0x00, 0x80, 0x00] [0xFF, 0xFF, 0xFF, 0xFF, 0xFF] = true := by decide
/-- M_ME_NA_1 with SQ = 1, V149 (R229, R188): the second address wraps. -/
theorem test_mMeNa1_sequence :
    loadsTwo (.mMeNa1 1 2) [0x09, 0x82, 0x03, 0x01, 0xFF, 0xFF, 0x00, 0x40, 0x00, 0x00, 0x80, 0xFF]
      [0x00, 0x40, 0x00] [0x00, 0x80, 0xFF] = true := by decide
/-- M_ME_NB_1 with SQ = 1, V150 (R231, R188): the second address wraps. -/
theorem test_mMeNb1_sequence :
    loadsTwo (.mMeNb1 1 2) [0x0B, 0x82, 0x03, 0x01, 0xFF, 0xFF, 0x9C, 0xFF, 0x00, 0x00, 0x80, 0xFF]
      [0x9C, 0xFF, 0x00] [0x00, 0x80, 0xFF] = true := by decide
/-- M_ME_NC_1 with SQ = 1, V151 (R233, R188): the second address wraps. -/
theorem test_mMeNc1_sequence :
    loadsTwo (.mMeNc1 1 2) [0x0D, 0x82, 0x03, 0x01, 0xFF, 0xFF, 0x00, 0x00, 0x80, 0x3F, 0x00, 0x01, 0x00, 0xC0, 0xFF,
      0xFF]
      [0x00, 0x00, 0x80, 0x3F, 0x00] [0x01, 0x00, 0xC0, 0xFF, 0xFF] = true := by decide
/-- M_IT_NA_1 with SQ = 1, V152 (R235, R188): the second address wraps. -/
theorem test_mItNa1_sequence :
    loadsTwo (.mItNa1 1 2) [0x0F, 0x82, 0x03, 0x01, 0xFF, 0xFF, 0x2A, 0x00, 0x00, 0x00, 0x05, 0x00, 0x00, 0x00, 0x80,
      0xFF]
      [0x2A, 0x00, 0x00, 0x00, 0x05] [0x00, 0x00, 0x00, 0x80, 0xFF] = true := by decide
/-- M_PS_NA_1 with SQ = 1, V153 (R240, R188): the second address wraps. -/
theorem test_mPsNa1_sequence :
    loadsTwo (.mPsNa1 1 2) [0x14, 0x82, 0x03, 0x01, 0xFF, 0xFF, 0x05, 0x00, 0x01, 0x00, 0x00, 0xFF, 0xFF, 0xFF, 0xFF,
      0xFF]
      [0x05, 0x00, 0x01, 0x00, 0x00] [0xFF, 0xFF, 0xFF, 0xFF, 0xFF] = true := by decide
/-- M_ME_ND_1 with SQ = 1, V154 (R241, R188): the second address wraps. -/
theorem test_mMeNd1_sequence :
    loadsTwo (.mMeNd1 1 2) [0x15, 0x82, 0x03, 0x01, 0xFF, 0xFF, 0x00, 0x40, 0x00, 0x80]
      [0x00, 0x40] [0x00, 0x80] = true := by decide

/-! ## One step of the link-level instructions and of the commands -/

/-- ACK, V1 and V3 (R110). -/
theorem test_ack :
    nextIs (exec .ack (wireState 1 [0xE5])) (fun t => t.regs == { Regs.zero with kind := 1 } && t.status == okStatus) ∧
      nextIs (exec .ack (wireState 1 [0xE5, 0xE5])) (fun t => t.status == errStatus 2 1) := by decide

/-- NACK, V2 (R111). -/
theorem test_nack :
    nextIs (exec .nack (wireState 1 [0xA2])) (fun t => t.regs == { Regs.zero with kind := 1, sc := 1 }) := by decide

/-- FIXED, V11 (R112). -/
theorem test_fixedFrame :
    nextIs (exec .fixedFrame (wireState 1 [0x10, 0x5A, 0x03, 0x5D, 0x16])) (fun t =>
      t.regs == { Regs.zero with kind := 2, ctrl := 0x5A, laddr := 3, cs := 0x5D } && t.status == okStatus) := by decide

/-- FIXED, V34 and V35: a wrong checksum flagged, and fatal (R112, R114). -/
theorem test_fixedFrame_checksum :
    nextIs (exec .fixedFrame (wireState 1 [0x10, 0x49, 0x01, 0x4B, 0x16])) (fun t =>
      t.status == { st := 1, err := 0, cserr := 1, errpos := 0 }) ∧
    nextIs (exec .fixedFrame (wireState 2 [0x10, 0x49, 0x01, 0x4B, 0x16])) (fun t =>
      t.status == errStatus 8 3 && t.regs == Regs.zero) := by decide

/-- VARIABLE, program P1: a sequence of three single points (R113, R187). -/
theorem test_variableFrame :
    nextIs (exec .variableFrame (wireState 1 ([0x68, 0x0B, 0x0B, 0x68, 0x08, 0x01]
        ++ [0x01, 0x83, 0x03, 0x01, 0x00, 0x10, 0x01, 0x00, 0x81, 0x23, 0x16]))) (fun t =>
      t.regs == { kind := 3, sc := 0, ctrl := 8, laddr := 1, len := 11, cs := 0x23, hasasdu := 1, ti := 1, vsq := 0x83,
                  cotb := 3, ca := 1 } &&
      t.status == okStatus && slotIs t 0 0x1000 [1] && slotIs t 1 0x1001 [0] && slotIs t 2 0x1002 [0x81] &&
      fldRead t 2 .siq .iv == some 1) := by decide

/-- VARIABLE, V195 and V199: NUM = 0 comes before the unknown type, and one byte is left over (R297, R298). -/
theorem test_variableFrame_errors :
    nextIs (exec .variableFrame (wireState 1 [0x68, 6, 6, 0x68, 8, 1, 0x99, 0x00, 3, 1, 0xA6, 0x16])) (fun t =>
      t.status == errStatus 7 7) ∧
    nextIs (exec .variableFrame (wireState 1 [0x68, 0x0A, 0x0A, 0x68, 8, 1, 1, 1, 3, 1, 1, 0, 1, 0xFF, 0x11, 0x16]))
      (fun t => t.status == errStatus 2 13) := by decide

/-- DEC_FRAME, program P4 step A: an unknown type identifier in a good frame (R296, R300). -/
theorem test_decFrame_unknown_type :
    nextIs (exec .decFrame (wireState 1 [0x68, 9, 9, 0x68, 8, 1, 0x99, 1, 3, 1, 0, 0, 0, 0xA7, 0x16])) (fun t =>
      t.status == errStatus 5 6 && t.regs == Regs.zero && t.wlen == 15) := by decide

/-- DEC_FRAME, S3 and S8 (R112, R113). -/
theorem test_decFrame_examples :
    nextIs (exec .decFrame (wireState 1 [0x68, 9, 8, 0x68, 8, 1, 1, 1, 3, 1, 1, 0, 1, 0x11, 0x16])) (fun t =>
      t.status == errStatus 2 2) ∧
    nextIs (exec .decFrame (wireState 1 [0x10, 0x49, 0x01, 0x4A, 0x00])) (fun t => t.status == errStatus 4 4) := by
  decide

/-- DEC_ASDU, S4: three objects with independent addresses (R186). -/
theorem test_decAsdu :
    nextIs (exec .decAsdu (wireState 1 [1, 3, 3, 1, 0x10, 0, 1, 5, 0, 0, 0x10, 0, 0x81])) (fun t =>
      t.cmd == 2 && t.regs.kind == 4 && slotIs t 0 0x10 [1] && slotIs t 1 5 [0] && slotIs t 2 0x10 [0x81]) := by decide

/-- ENC_FRAME, program P3 step A: a generated checksum (R121, R123). -/
theorem test_encFrame :
    nextIs (exec .encFrame (fldWrite (fldWrite (recState { csmode := 1, csgen := 1 }
        { Regs.zero with kind := 3, ctrl := 0x73, laddr := 1, hasasdu := 1, ti := 45, vsq := 1, cotb := 6, ca := 1 })
        0 .sco .se 1) 0 .sco .scs 1)) (fun t =>
      wireIs t [0x68, 9, 9, 0x68, 0x73, 1, 0x2D, 1, 6, 1, 0, 0, 0x81, 0x2A, 0x16] && t.status == okStatus) := by decide

/-- ENC_FRAME, V210 and V211: a stored checksum that is wrong under FATAL, and a computed one (R123, R302). -/
theorem test_encFrame_checksum :
    nextIs (exec .encFrame (recState { csmode := 2, csgen := 0 } { Regs.zero with kind := 3, ctrl := 0x0B, laddr := 1
      }))
      (fun t => t.status == errStatus 8 0 && t.wlen == 0) ∧
    nextIs (exec .encFrame (recState { csmode := 2, csgen := 1 } { Regs.zero with kind := 3, ctrl := 0x0B, laddr := 1
      }))
      (fun t => wireIs t [0x68, 2, 2, 0x68, 0x0B, 1, 0x0C, 0x16] && t.status == okStatus) := by decide

/-- ENC_ASDU after DEC_ASDU with VSQ changed to SQ = 0, program P6 steps A and D (R190, R280). -/
theorem test_encAsdu :
    nextIs (exec .decAsdu (wireState 1 [0x0D, 0x82, 3, 1, 0, 0x20, 0, 0, 0x80, 0x3F, 0, 0, 0, 0xC0, 0x7F, 0x81]))
      (fun t =>
      nextIs (exec .encAsdu (applyAccess (.reg .vsq 2) t)) (fun u =>
        wireIs u [0x0D, 2, 3, 1, 0, 0x20, 0, 0, 0x80, 0x3F, 0, 1, 0x20, 0, 0, 0xC0, 0x7F, 0x81])) := by decide

/-- ENC_ASDU, V187 and V201 (R190). -/
theorem test_encAsdu_sizes :
    nextIs (exec .encAsdu (recState { csmode := 1, csgen := 0 } { Regs.zero with ti := 1, vsq := 0x81 }))
      (fun t => t.wlen == 7) ∧
    nextIs (exec .encAsdu State.reset) (fun t => t.status == errStatus 7 0) := by decide

/-! ## Elements, time tags and the host -/

/-- The extractor view replaces exactly its bits: program P3's SCO writes on a group byte of 02 (R31). -/
theorem test_fld_write :
    (fldWrite (applyAccess (.eg 5 0 0x02) { State.reset with regs := { Regs.zero with ti := 45 } }) 5 .sco .se
      1).slots[5].eg[0]
      = 0x82 := by decide

/-- S6 and V335: the fields of a CP56 time tag (R142). -/
theorem test_cp56 :
    (specParams.layout .cp56).map (fun e => unpackField [0, 0, 0, 0, 1, 0x21, 0] e.2) =
        (specParams.layout .cp56).map (fun e =>
          if e.1 = .day ∨ e.1 = .mon then 1 else if e.1 = .res2 then 2 else 0) ∧
      packKind specParams .cp56 (fun f => (unpackKind specParams .cp56 [0, 0, 0, 0, 1, 0x21, 0] f).getD 0) =
        some [0, 0, 0, 0, 1, 0x21, 0] := by decide

/-- V332: CP56 in its representative row (R142). -/
theorem test_cp56_row :
    [Field.ms, .min, .su, .hour, .dow, .day, .mon, .year].map (fun f =>
        (unpackKind specParams .cp56 [0xE8, 0x03, 0x05, 0x0C, 0x4F, 0x0B, 0x18] f).getD 0) =
      [1000, 5, 0, 12, 2, 15, 11, 24] := by decide

/-- `pack_K` refuses a value wider than its field and accepts the widest that fits (R150). -/
theorem test_pack_refuses :
    packKind specParams .siq (fun f => if f = .spi then 2 else 0) = none ∧
      packKind specParams .siq (fun f => if f = .res then 7 else 0) = some [0x0E] := by decide

/-- Host writes that are refused (U3, U4, U5). -/
theorem test_refused_writes :
    applyAccess (.csmode 3) State.reset = State.reset ∧ applyAccess (.wlen 2049) State.reset = State.reset ∧
      applyAccess (.reg .sc 2) State.reset = State.reset ∧ hostRead .cfg State.reset = some 1 := ⟨rfl, rfl, rfl, rfl⟩

/-! ## Another value of the open parameters -/

/-- The smallest BUFSZ that R6 allows, and a registry in which type 2 is sequence-legal. -/
def otherParams : Params :=
  { specTables 1782 with registry := specRegistry.map fun r => if r.ti = 2 then { r with seqLegal := true } else r }

/-- The decoder and the type's meaning take SEQ_LEGAL from the registry (R6, R32). -/
theorem test_other_registry :
    decode otherParams.registry .asdu [2, 0x81] = .ok (.mSpTa1 0x81) ∧
      nextIs (exec (.mSpTa1 0x81) { wireState 1 [2, 0x81, 3, 1, 5, 0, 1, 2, 3, 4] with par := otherParams })
        (fun t => t.status == okStatus && slotIs t 0 5 [1, 2, 3, 4]) := by decide

/-- WLEN is bounded by BUFSZ (R22, U3). -/
theorem test_other_bufsz :
    (applyAccess (.wlen 1782) { State.reset with par := otherParams }).wlen = 1782 ∧
      (applyAccess (.wlen 1783) { State.reset with par := otherParams }).wlen = 0 := by decide

theorem test_other_rows : otherParams.registry.map Row.ti = Config.typeIds ∧
    otherParams.registry.all otherParams.rowValid = true := by decide

/-! ## States and operands that meet the obligations' hypotheses -/

theorem reset_onSpecTables : OnSpecTables State.reset := ⟨rfl, by decide, by decide⟩

theorem wireState_onSpecTables (m : BitVec 2) (bs : List Byte) : OnSpecTables (wireState m bs) :=
  ⟨rfl, reset_onSpecTables.2⟩

/-- A good variable frame with one single point, L = 9 (S3's frame with its length bytes right). -/
def frameBytes : List Byte := [0x68, 9, 9, 0x68, 8, 1, 1, 1, 3, 1, 1, 0, 1, 0x11, 0x16]

/-- The longest frame of the encodings: 83 single points with their own addresses, L = 255 and 261 bytes, all objects
0. -/
def longFrame : State :=
  { wireState 1 [] with
      wlen := 261
      wire := [(0, 0x68), (1, 255), (2, 255), (3, 0x68), (4, 8), (5, 1), (6, 1), (7, 83), (259, 93), (260, 0x16)] }

theorem test_witness_DecodeOfEncode :
    Instr.wellFormed specRegistry (.mSpNa1 1 127) = true ∧ Instr.wellFormed specRegistry (.cBoNa1 0x7F) = true ∧
      Instr.wellFormed specRegistry .nack = true ∧ Instr.wellFormed specRegistry .encAsdu = true ∧
      Instr.wellFormed otherParams.registry (.mSpTa1 0xFF) = true := by decide

theorem test_witness_EncodeOfDecode :
    decode specRegistry .cmd [0xFF] = .ok .encAsdu ∧ decode specRegistry .link [0x68, 2] = .ok .variableFrame ∧
      decode specRegistry .asdu [70, 127, 3] = .ok (.mEiNa1 0x7F) := by decide

theorem test_witness_DecoderFollowsRegistry :
    specParams.valid = true ∧ specParams.lookup 0 = none ∧ specParams.lookup 255 = none ∧
      (specParams.lookup 70 = some rowMEiNa1 ∧ vsqSq 0x80 = 1 ∧ rowMEiNa1.seqLegal = false) ∧
      (specParams.lookup 21 = some rowMMeNd1 ∧ rowMMeNd1.seqLegal = true) ∧ vsqSq 0x7F = 0 :=
  ⟨specParams_valid, by decide⟩

theorem test_witness_IllegalSequencePairs :
    decode specRegistry .asdu [2, 0x80] = .error .illegalSequenceMode ∧ decode specRegistry .asdu [2, 0x00] ≠ .error
      .illegalSequenceMode := by
  decide

theorem test_witness_StepRunsHostStep :
    { State.reset with pending := [.start 3, .start 0] }.pending = HostAction.start 3 :: [.start 0] ∧
      { State.reset with pending := [.access (.wlen 1)] }.pending = HostAction.access (.wlen 1) :: [] ∧
      State.reset.pending = [] := by decide

theorem test_witness_StartDecFrameRunsFrame :
    let s := { wireState 1 frameBytes with pending := [.start 0] }
    s.pending = .start 0 :: [] ∧ s.wlen.toNat ≤ s.par.bufsz ∧
      decode s.par.registry .link ((List.range s.wlen.toNat).map s.byte) = .ok .variableFrame := by decide

theorem test_witness_StartDecAsduRunsType :
    let s := { wireState 1 [1, 1, 3, 1, 1, 0, 1] with pending := [.start 2] }
    s.pending = .start 2 :: [] ∧ s.wlen.toNat ≤ s.par.bufsz ∧
      decode s.par.registry .asdu ((List.range s.wlen.toNat).map s.byte) = .ok (.mSpNa1 0 1) := by decide

theorem test_witness_SingleCharacterDecodes :
    (wireState 2 [0xE5]).wlen = 1 ∧ (wireState 2 [0xE5]).wlen.toNat ≤ (wireState 2 [0xE5]).par.bufsz := by decide

theorem test_witness_FixedFrameDecodes :
    let s := wireState 2 [0x10, 0x49, 0x01, 0x4A, 0x16]
    s.wlen = 5 ∧ s.wlen.toNat ≤ s.par.bufsz ∧ s.byte 4 = 0x16 ∧ s.cfg.csmode = 2 ∧ s.cserrAt (s.byte 3) 1 2 = 0 := by
      decide

theorem test_witness_EmptyVariableFrameDecodes :
    let s := wireState 2 [0x68, 2, 2, 0x68, 0x0B, 1, 0x0C, 0x16]
    s.wlen = 8 ∧ s.wlen.toNat ≤ s.par.bufsz ∧ s.byte 1 = 2 ∧ s.byte 2 = 2 ∧ s.byte 3 = 0x68 ∧ s.byte 7 = 0x16 ∧
      s.cfg.csmode = 2 ∧
      s.cserrAt (s.byte 6) 4 2 = 0 := by decide

theorem test_witness_VariableFrameDecodes :
    let s := longFrame
    s.par.valid = true ∧ s.par.lookup (s.byte 6) = some rowMSpNa1 ∧ vsqNum (s.byte 7) ≠ 0 ∧ (vsqSq (s.byte 7) = 1 →
      rowMSpNa1.seqLegal = true) ∧
      255 = 6 + listBytes (s.par.gsize rowMSpNa1) (vsqSq (s.byte 7)) (vsqNum (s.byte 7)).toNat ∧ s.wlen.toNat = 255 +
        6 ∧
      (s.byte 1).toNat = 255 ∧ s.byte 2 = s.byte 1 ∧ s.byte 3 = 0x68 ∧ s.byte (255 + 5) = 0x16 ∧
      s.cfg.csmode ≠ 2 :=
  ⟨specParams_valid, by decide⟩

/-- Under FATAL, with a right checksum. -/
theorem test_witness_VariableFrameDecodes_fatal :
    let s := wireState 2 frameBytes
    s.par.valid = true ∧ s.par.lookup (s.byte 6) = some rowMSpNa1 ∧ vsqNum (s.byte 7) ≠ 0 ∧ vsqSq (s.byte 7) ≠ 1 ∧
      9 = 6 + listBytes (s.par.gsize rowMSpNa1) (vsqSq (s.byte 7)) (vsqNum (s.byte 7)).toNat ∧ s.wlen.toNat = 9 + 6 ∧
      (s.byte 1).toNat = 9 ∧ s.byte 2 = s.byte 1 ∧ s.byte 3 = 0x68 ∧ s.byte (9 + 5) = 0x16 ∧ s.cfg.csmode = 2 ∧
      s.cserrAt (s.byte (9 + 4)) 4 9 = 0 :=
  ⟨specParams_valid, by decide⟩

theorem test_witness_LenIsTwoPlusAsdu :
    (∃ t, exec .decFrame (wireState 1 frameBytes) = .next t ∧ t.status.st = 1 ∧ t.regs.kind = 3 ∧ t.regs.hasasdu = 1) ∧
    (∃ t, exec .decFrame (wireState 1 [0x68, 2, 2, 0x68, 0x0B, 1, 0x0C, 0x16]) = .next t ∧ t.status.st = 1 ∧
      t.regs.kind = 3 ∧ t.regs.hasasdu = 0) ∧
    ∃ t, exec .decFrame (wireState 1 [0xE5]) = .next t ∧ t.status.st = 1 ∧ t.regs.kind ≠ 3 :=
  ⟨⟨_, rfl, by decide⟩, ⟨_, rfl, by decide⟩, ⟨_, rfl, by decide⟩⟩

theorem test_witness_SequenceTypesDecode :
    (let s := { State.reset with wlen := 133 }
     OnSpecTables s ∧ (127 : BitVec 7) ≠ 0 ∧ s.wlen.toNat = 4 + 2 + (127 : BitVec 7).toNat * 1) ∧
    (let s := { State.reset with wlen := 893 }
     OnSpecTables s ∧ (127 : BitVec 7) ≠ 0 ∧ s.wlen.toNat = 4 + (127 : BitVec 7).toNat * (2 + 5)) :=
  ⟨⟨reset_onSpecTables, by decide⟩, reset_onSpecTables, by decide⟩

theorem test_witness_Cp24TypesDecode :
    (let s := { State.reset with wlen := 1274 }
     OnSpecTables s ∧ vsqNum 0x7F ≠ 0 ∧ vsqSq 0x7F = 0 ∧ s.wlen.toNat = 4 + (vsqNum 0x7F).toNat * (2 + 8)) ∧
    (let s := { State.reset with wlen := 4 }
     OnSpecTables s ∧ vsqNum 0x81 ≠ 0 ∧ vsqSq 0x81 = 1 ∧ 4 ≤ s.wlen.toNat ∧ s.wlen.toNat ≤ s.par.bufsz) :=
  ⟨⟨reset_onSpecTables, by decide⟩, reset_onSpecTables, by decide⟩

theorem test_witness_Cp56TypesDecode :
    (let s := { State.reset with wlen := 1782 }
     OnSpecTables s ∧ vsqNum 0x7F ≠ 0 ∧ vsqSq 0x7F = 0 ∧ s.wlen.toNat = 4 + (vsqNum 0x7F).toNat * (2 + 12)) ∧
    (let s := { State.reset with wlen := 4 }
     OnSpecTables s ∧ vsqNum 0x81 ≠ 0 ∧ vsqSq 0x81 = 1 ∧ 4 ≤ s.wlen.toNat ∧ s.wlen.toNat ≤ s.par.bufsz) :=
  ⟨⟨reset_onSpecTables, by decide⟩, reset_onSpecTables, by decide⟩

theorem test_witness_CommandTypesDecode :
    (let s := { State.reset with wlen := 893 }
     OnSpecTables s ∧ vsqNum 0x7F ≠ 0 ∧ vsqSq 0x7F = 0 ∧ s.wlen.toNat = 4 + (vsqNum 0x7F).toNat * (2 + 5)) ∧
    (let s := { State.reset with wlen := 4 }
     OnSpecTables s ∧ vsqNum 0x81 ≠ 0 ∧ vsqSq 0x81 = 1 ∧ 4 ≤ s.wlen.toNat ∧ s.wlen.toNat ≤ s.par.bufsz) :=
  ⟨⟨reset_onSpecTables, by decide⟩, reset_onSpecTables, by decide⟩

theorem test_witness_SequenceAddresses :
    ∃ t, exec .decAsdu (wireState 1 [1, 0x82, 3, 1, 0xFF, 0xFF, 1, 0xFE]) = .next t ∧ t.status.st = 1 ∧
      vsqSq t.regs.vsq = 1 ∧ 1 < (vsqNum t.regs.vsq).toNat := ⟨_, rfl, by decide⟩

theorem test_witness_DecFrameDecodes :
    ((wireState 1 [0xE5]).wlen.toNat ≤ State.reset.par.bufsz ∧ (wireState 1 [0xE5]).wlen = 1 ∧ (wireState 1
      [0xE5]).byte 0 = 0xE5) ∧
    ((wireState 1 [0xA2]).wlen = 1 ∧ (wireState 1 [0xA2]).byte 0 = 0xA2) ∧
    let s := wireState 2 [0x10, 0x49, 0x01, 0x4A, 0x16]
    s.wlen.toNat ≤ s.par.bufsz ∧ s.wlen = 5 ∧ s.byte 0 = 0x10 ∧ s.byte 4 = 0x16 ∧ s.cserrAt (s.byte 3) 1 2 = 0 := by
      decide

theorem test_witness_DecAsduDecodes :
    let s := { wireState 1 [0x21, 0x7F] with wlen := 1782 }
    s.par.valid = true ∧ s.par.lookup (s.byte 0) = some rowMBoTb1 ∧ vsqNum (s.byte 1) ≠ 0 ∧ (vsqSq (s.byte 1) = 1 →
      rowMBoTb1.seqLegal = true) ∧
      s.wlen.toNat = 4 + listBytes (s.par.gsize rowMBoTb1) (vsqSq (s.byte 1)) (vsqNum (s.byte 1)).toNat :=
  ⟨specParams_valid, by decide⟩

theorem test_witness_EncFrameEncodes :
    State.reset.par.valid = true ∧
    Memory.wf State.reset.par.bufsz State.reset.wire = true ∧
     (recState { csmode := 2, csgen := 0 } { Regs.zero with kind := 1, sc := 1 }).regs.kind = 1 ∧
     (let s := recState { csmode := 2, csgen := 0 } { Regs.zero with kind := 2, ctrl := 0xFF, laddr := 0xFF, cs :=
       0xFE }
      Memory.wf s.par.bufsz s.wire = true ∧ s.regs.kind = 2 ∧ s.regs.cs = s.regs.ctrl + s.regs.laddr) ∧
     (let s := recState { csmode := 2, csgen := 0 } { Regs.zero with kind := 3, ctrl := 0x0B, laddr := 1, cs := 0x0C }
      s.regs.kind = 3 ∧ s.regs.hasasdu = 0 ∧ s.regs.cs = s.regs.ctrl + s.regs.laddr) :=
  ⟨specParams_valid, by decide⟩

theorem test_witness_EncFrameEncodesAsdu :
    let s := recState { csmode := 2, csgen := 1 } { Regs.zero with kind := 3, hasasdu := 1, ti := 45, vsq := 83 }
    s.par.valid = true ∧ Memory.wf s.par.bufsz s.wire = true ∧ s.regs.kind = 3 ∧ s.regs.hasasdu = 1 ∧ s.par.lookup
      s.regs.ti = some rowCScNa1 ∧
      vsqNum s.regs.vsq ≠ 0 ∧ (vsqSq s.regs.vsq = 1 → rowCScNa1.seqLegal = true) ∧
      255 = 6 + listBytes (s.par.gsize rowCScNa1) (vsqSq s.regs.vsq) (vsqNum s.regs.vsq).toNat ∧ s.cfg.csgen ≠ 0 :=
  ⟨specParams_valid, by decide⟩

/-- With CSGEN = 0 under FATAL: the stored checksum is the computed one. -/
theorem test_witness_EncFrameEncodesAsdu_stored :
    let s := recState { csmode := 2, csgen := 0 } { Regs.zero with kind := 3, hasasdu := 1, ti := 1, vsq := 1, cs := 2 }
    s.regs.kind = 3 ∧ s.regs.hasasdu = 1 ∧ s.par.lookup s.regs.ti = some rowMSpNa1 ∧ vsqNum s.regs.vsq ≠ 0 ∧
      9 = 6 + listBytes (s.par.gsize rowMSpNa1) (vsqSq s.regs.vsq) (vsqNum s.regs.vsq).toNat ∧
      ∃ p, encAsdu s.par s.regs s.slots = .ok p ∧ s.regs.cs = cssum (s.regs.ctrl :: s.regs.laddr :: p) :=
  ⟨by decide, by decide, by decide, by decide, by decide, _, rfl, by decide⟩

theorem test_witness_EncAsduEncodes :
    let s := recState { csmode := 1, csgen := 0 } { Regs.zero with ti := 33, vsq := 0x7F }
    s.par.valid = true ∧ Memory.wf s.par.bufsz s.wire = true ∧ s.par.lookup s.regs.ti = some rowMBoTb1 ∧ vsqNum
      s.regs.vsq ≠ 0 ∧
      (vsqSq s.regs.vsq = 1 → rowMBoTb1.seqLegal = true) :=
  ⟨specParams_valid, by decide⟩

theorem test_witness_DecodeFrame :
    (Decodes .variableFrame ∧ ∃ t, exec .variableFrame (wireState 1 frameBytes) = .next t ∧ t.status.st = 1) ∧
      (Decodes (.mSpNa1 0 1) ∧ ∃ t, exec (.mSpNa1 0 1) (wireState 1 [1, 1, 3, 1, 1, 0, 1]) = .next t) ∧
      Decodes .decAsdu ∧ ∃ t, exec .decAsdu (wireState 1 []) = .next t ∧ t.status.st = 2 :=
  ⟨⟨.inl (by decide), _, rfl, by decide⟩, ⟨.inl (by decide), _, rfl⟩, .inr (.inr rfl), _, rfl, by decide⟩

theorem test_witness_EncodeFrame :
    Memory.wf (wireState 1 frameBytes).par.bufsz (wireState 1 frameBytes).wire = true ∧
      (∃ t, exec .encFrame { wireState 1 frameBytes with regs := { Regs.zero with kind := 1 } } = .next t) ∧
      ∃ t, exec .encAsdu (wireState 1 frameBytes) = .next t := ⟨by decide, ⟨_, rfl⟩, ⟨_, rfl⟩⟩

theorem test_witness_ErrorState :
    (Decodes .decFrame ∧ ∃ t, exec .decFrame (wireState 1 [0x00]) = .next t ∧ t.status.st = 2) ∧
      (¬ Decodes .encFrame ∧ ∃ t, exec .encFrame State.reset = .next t ∧ t.status.st = 2) :=
  ⟨⟨.inr (.inl rfl), _, rfl, by decide⟩, by unfold Decodes; decide, _, rfl, by decide⟩

theorem test_witness_StatusRules :
    (∃ t, exec .ack (wireState 1 [0xE5]) = .next t ∧ t.status.st = 1 ∧ t.regs.kind = 1) ∧
      (∃ t, exec .encFrame (recState { csmode := 1, csgen := 0 } { Regs.zero with kind := 1 }) = .next t ∧
        t.status.st = 1) ∧
      (∃ t, exec .decFrame (wireState 1 []) = .next t ∧ t.status.st = 2) ∧ ∀ w l, Access.status 7 ≠ .reset w l :=
  ⟨⟨_, rfl, by decide⟩, ⟨_, rfl, by decide⟩, ⟨_, rfl, by decide⟩, by simp⟩

theorem test_witness_StatusRules_errpos :
    (Decodes (.mDpTa1 1) ∧ ∃ t, exec (.mDpTa1 1) (wireState 1 [4, 1, 3]) = .next t ∧ t.status.errpos = 3) ∧
      ¬ Decodes .encAsdu ∧ ∃ t, exec .encAsdu State.reset = .next t :=
  ⟨⟨.inl (by decide), _, rfl, by decide⟩, by unfold Decodes; decide, _, rfl⟩

theorem test_witness_UnknownFrameStart :
    (let s := wireState 1 [0x16]
     1 ≤ s.wlen.toNat ∧ s.wlen.toNat ≤ s.par.bufsz ∧ s.byte 0 ≠ 0xE5 ∧ s.byte 0 ≠ 0xA2 ∧ s.byte 0 ≠ 0x10 ∧
       s.byte 0 ≠ 0x68) ∧
    (let s := wireState 1 [0x68, 9, 9, 0x10]
     4 ≤ s.wlen.toNat ∧ s.wlen.toNat ≤ s.par.bufsz ∧ s.byte 0 = 0x68 ∧ 2 ≤ (s.byte 1).toNat ∧ s.byte 2 = s.byte 1 ∧
       s.byte 3 ≠ 0x68) ∧
    State.reset.regs.kind = 0 ∧
      (recState { csmode := 1, csgen := 0 } { Regs.zero with kind := 7 }).regs.kind = 7 := by decide

theorem test_witness_FrameLengthMismatch :
    (let s := wireState 1 [0x68, 9, 8]
     3 ≤ s.wlen.toNat ∧ s.wlen.toNat ≤ s.par.bufsz ∧ s.byte 0 = 0x68 ∧ 2 ≤ (s.byte 1).toNat ∧ s.byte 2 ≠ s.byte 1) ∧
    (let s := wireState 1 [0x68, 1]
     2 ≤ s.wlen.toNat ∧ s.byte 0 = 0x68 ∧ (s.byte 1).toNat < 2) ∧
    (let s := wireState 1 [0xA2, 0xE5]
     2 ≤ s.wlen.toNat ∧ s.byte 0 = 0xA2) ∧
    (let s := wireState 1 [0x10, 0x49, 1, 0x4B, 0x16, 0]
     6 ≤ s.wlen.toNat ∧ s.wlen.toNat ≤ s.par.bufsz ∧ s.byte 0 = 0x10 ∧ s.byte 4 = 0x16) ∧
    (let s := wireState 1 [0x68, 2, 2, 0x68, 0x0B, 1, 0x0C, 0x16, 0]
     s.wlen.toNat ≤ s.par.bufsz ∧ s.byte 0 = 0x68 ∧ 2 ≤ (s.byte 1).toNat ∧ s.byte 2 = s.byte 1 ∧ s.byte 3 = 0x68 ∧
       (s.byte 1).toNat + 6 < s.wlen.toNat ∧ s.byte ((s.byte 1).toNat + 5) = 0x16) := by decide

/-- An ASDU too long for a frame: 50 objects of type 13, 256 bytes (V185). -/
theorem test_witness_FrameLengthMismatch_encode :
    let s := recState { csmode := 1, csgen := 0 } { Regs.zero with kind := 3, hasasdu := 1, ti := 13, vsq := 0xB2 }
    s.regs.kind = 3 ∧ s.regs.hasasdu = 1 ∧ ∃ b, encAsdu s.par s.regs s.slots = .ok b ∧ 253 < b.length :=
  ⟨by decide, by decide, [13, 0xB2, 0, 0] ++ encObjs 5 1 50 State.reset.slots, rfl, by
    rw [List.length_append, encObjs_length _ _ _ _ (by decide)]; decide⟩

theorem test_witness_AsduSizeErrors :
    State.reset.par.valid = true ∧
    (let s := wireState 1 [1, 0, 3]
     s.wlen.toNat ≤ s.par.bufsz ∧ s.wlen.toNat < 4) ∧
    (let s := wireState 1 [1, 1, 3, 1, 1, 0]
     4 ≤ s.wlen.toNat ∧ s.par.lookup (s.byte 0) = some rowMSpNa1 ∧ vsqNum (s.byte 1) ≠ 0 ∧ vsqSq (s.byte 1) ≠ 1 ∧
       s.wlen.toNat < 4 + listBytes (s.par.gsize rowMSpNa1) (vsqSq (s.byte 1)) (vsqNum (s.byte 1)).toNat) ∧
    (let s := wireState 1 [1, 0x81, 3, 1, 1, 0, 1, 0]
     4 ≤ s.wlen.toNat ∧ s.par.lookup (s.byte 0) = some rowMSpNa1 ∧ vsqNum (s.byte 1) ≠ 0 ∧
       rowMSpNa1.seqLegal = true ∧
       4 + listBytes (s.par.gsize rowMSpNa1) (vsqSq (s.byte 1)) (vsqNum (s.byte 1)).toNat < s.wlen.toNat) :=
  ⟨specParams_valid, by decide⟩

/-- Frames whose payload is 1 byte (V27) and 2 bytes (V194), and under FATAL 3 bytes with a right checksum. -/
theorem test_witness_AsduSizeErrors_header :
    (wireState 1 []).par.valid = true ∧
    (let s := wireState 1 [0x68, 3, 3, 0x68, 8, 1, 1, 0x0A, 0x16]
     (s.byte 1).toNat = 3 ∧ s.wlen.toNat = 3 + 6 ∧ s.byte 0 = 0x68 ∧ s.byte 2 = s.byte 1 ∧ s.byte 3 = 0x68 ∧
       s.byte (3 + 5) = 0x16 ∧ s.cfg.csmode ≠ 2) ∧
    (let s := wireState 1 [0x68, 4, 4, 0x68, 8, 1, 0x99, 0, 0xA2, 0x16]
     (s.byte 1).toNat = 4 ∧ s.wlen.toNat = 4 + 6 ∧ s.byte 0 = 0x68 ∧ s.byte 2 = s.byte 1 ∧ s.byte 3 = 0x68 ∧
       s.byte (4 + 5) = 0x16 ∧ s.cfg.csmode ≠ 2) ∧
    (let s := wireState 2 [0x68, 5, 5, 0x68, 8, 1, 1, 1, 3, 0x0E, 0x16]
     (s.byte 1).toNat = 5 ∧ s.wlen.toNat = 5 + 6 ∧ s.byte 0 = 0x68 ∧ s.byte 2 = s.byte 1 ∧ s.byte 3 = 0x68 ∧
       s.byte (5 + 5) = 0x16 ∧ s.cfg.csmode = 2 ∧ s.cserrAt (s.byte (5 + 4)) 4 5 = 0) :=
  ⟨specParams_valid, by decide⟩

/-- Objects missing (V198) and one byte left over (V199). -/
theorem test_witness_AsduSizeErrors_objects :
    (wireState 1 []).par.valid = true ∧
    (let s := wireState 1 [0x68, 6, 6, 0x68, 8, 1, 1, 1, 3, 1, 0x0F, 0x16]
     (s.byte 1).toNat = 6 ∧ s.wlen.toNat = 6 + 6 ∧ s.byte 0 = 0x68 ∧ s.byte 2 = s.byte 1 ∧ s.byte 3 = 0x68 ∧
       s.byte (6 + 5) = 0x16 ∧ s.cfg.csmode ≠ 2 ∧ s.par.lookup (s.byte 6) = some rowMSpNa1 ∧ vsqNum (s.byte 7) ≠ 0 ∧
       vsqSq (s.byte 7) ≠ 1 ∧
       6 - 2 < 4 + listBytes (s.par.gsize rowMSpNa1) (vsqSq (s.byte 7)) (vsqNum (s.byte 7)).toNat) ∧
    (let s := wireState 1 [0x68, 0x0A, 0x0A, 0x68, 8, 1, 1, 1, 3, 1, 1, 0, 1, 0xFF, 0x11, 0x16]
     (s.byte 1).toNat = 10 ∧ s.wlen.toNat = 10 + 6 ∧ s.byte 0 = 0x68 ∧ s.byte 2 = s.byte 1 ∧ s.byte 3 = 0x68 ∧
       s.byte (10 + 5) = 0x16 ∧ s.par.lookup (s.byte 6) = some rowMSpNa1 ∧ vsqNum (s.byte 7) ≠ 0 ∧
       4 + listBytes (s.par.gsize rowMSpNa1) (vsqSq (s.byte 7)) (vsqNum (s.byte 7)).toNat < 10 - 2) :=
  ⟨specParams_valid, by decide⟩

theorem test_witness_FrameTruncated :
    (wireState 1 []).wlen = 0 ∧
    (let s := wireState 1 [0x10, 1, 2, 3]
     1 ≤ s.wlen.toNat ∧ s.wlen.toNat < 5 ∧ s.byte 0 = 0x10) ∧
    ((wireState 1 [0x68]).wlen = 1 ∧ (wireState 1 [0x68]).byte 0 = 0x68) ∧
    (let s := wireState 1 [0x68, 2]
     s.wlen = 2 ∧ s.byte 0 = 0x68 ∧ 2 ≤ (s.byte 1).toNat) ∧
    (let s := wireState 1 [0x68, 2, 2]
     s.wlen = 3 ∧ s.byte 0 = 0x68 ∧ 2 ≤ (s.byte 1).toNat ∧ s.byte 2 = s.byte 1) ∧
    (let s := wireState 1 [0x68, 2, 2, 0x68, 0x0B, 1, 0x0C]
     4 ≤ s.wlen.toNat ∧ s.byte 0 = 0x68 ∧ 2 ≤ (s.byte 1).toNat ∧ s.byte 2 = s.byte 1 ∧ s.byte 3 = 0x68 ∧
       s.wlen.toNat < (s.byte 1).toNat + 6) := by decide

theorem test_witness_encode_runs :
    ¬ Decodes .encFrame ∧ ∃ t, exec .encFrame State.reset = .next t := ⟨by unfold Decodes; decide, _, rfl⟩

theorem test_witness_UnterminatedFrame :
    (let s := wireState 1 [0x10, 0x49, 1, 0x4A, 0]
     5 ≤ s.wlen.toNat ∧ s.wlen.toNat ≤ s.par.bufsz ∧ s.byte 0 = 0x10 ∧ s.byte 4 ≠ 0x16) ∧
    (let s := wireState 1 [0x68, 2, 2, 0x68, 0x0B, 1, 0x0C, 0x15]
     s.wlen.toNat ≤ s.par.bufsz ∧ s.byte 0 = 0x68 ∧ 2 ≤ (s.byte 1).toNat ∧ s.byte 2 = s.byte 1 ∧ s.byte 3 = 0x68 ∧
       (s.byte 1).toNat + 6 ≤ s.wlen.toNat ∧ s.byte ((s.byte 1).toNat + 5) ≠ 0x16) ∧
    (wireState 1 [0xE5, 0]).byte 0 = 0xE5 := by decide

theorem test_witness_UnterminatedFrame_single :
    ∃ t, exec .decFrame (wireState 1 [0xE5, 0]) = .next t := ⟨_, rfl⟩

theorem test_witness_UnknownTypeId :
    (let s := wireState 1 [0, 1, 0, 0]
     4 ≤ s.wlen.toNat ∧ s.wlen.toNat ≤ s.par.bufsz ∧ vsqNum (s.byte 1) ≠ 0 ∧ s.par.lookup (s.byte 0) = none) ∧
    (let s := wireState 2 [0x68, 6, 6, 0x68, 8, 1, 0x99, 0x81, 3, 1, 0x27, 0x16]
     (s.byte 1).toNat = 6 ∧ s.wlen.toNat = 6 + 6 ∧ s.wlen.toNat ≤ s.par.bufsz ∧ s.byte 0 = 0x68 ∧ s.byte 2 = s.byte 1 ∧
       s.byte 3 = 0x68 ∧ s.byte (6 + 5) = 0x16 ∧ s.cserrAt (s.byte (6 + 4)) 4 6 = 0 ∧ vsqNum (s.byte 7) ≠ 0 ∧
       s.par.lookup (s.byte 6) = none) ∧
    (let s := recState { csmode := 1, csgen := 0 } { Regs.zero with kind := 3, hasasdu := 1, ti := 0x99, vsq := 0x81 }
     vsqNum s.regs.vsq ≠ 0 ∧ s.par.lookup s.regs.ti = none ∧ s.regs.kind = 3 ∧ s.regs.hasasdu = 1) := by decide

theorem test_witness_IllegalSequenceMode :
    (let s := wireState 1 [0x1E, 0x81, 0, 0]
     4 ≤ s.wlen.toNat ∧ s.wlen.toNat ≤ s.par.bufsz ∧ vsqNum (s.byte 1) ≠ 0 ∧ s.par.lookup (s.byte 0) = some rowMSpTb1 ∧
       rowMSpTb1.seqLegal = false ∧ vsqSq (s.byte 1) = 1) ∧
    (let s := wireState 2 [0x68, 6, 6, 0x68, 8, 1, 0x1E, 0x81, 3, 1, 0xAC, 0x16]
     (s.byte 1).toNat = 6 ∧ s.wlen.toNat = 6 + 6 ∧ s.wlen.toNat ≤ s.par.bufsz ∧ s.byte 0 = 0x68 ∧ s.byte 2 = s.byte 1 ∧
       s.byte 3 = 0x68 ∧ s.byte (6 + 5) = 0x16 ∧ s.cserrAt (s.byte (6 + 4)) 4 6 = 0 ∧ vsqNum (s.byte 7) ≠ 0 ∧
       s.par.lookup (s.byte 6) = some rowMSpTb1 ∧ vsqSq (s.byte 7) = 1) ∧
    (let s := recState { csmode := 1, csgen := 0 } { Regs.zero with kind := 3, hasasdu := 1, ti := 30, vsq := 0xFF }
     vsqNum s.regs.vsq ≠ 0 ∧ s.par.lookup s.regs.ti = some rowMSpTb1 ∧ vsqSq s.regs.vsq = 1 ∧ s.regs.kind = 3 ∧
       s.regs.hasasdu = 1) := by decide

theorem test_witness_VsqNumberZero :
    (let s := wireState 1 [0x99, 0x80, 0, 0]
     4 ≤ s.wlen.toNat ∧ s.wlen.toNat ≤ s.par.bufsz ∧ vsqNum (s.byte 1) = 0) ∧
    (let s := wireState 2 [0x68, 6, 6, 0x68, 8, 1, 0x99, 0x00, 3, 1, 0xA6, 0x16]
     (s.byte 1).toNat = 6 ∧ s.wlen.toNat = 6 + 6 ∧ s.wlen.toNat ≤ s.par.bufsz ∧ s.byte 0 = 0x68 ∧ s.byte 2 = s.byte 1 ∧
       s.byte 3 = 0x68 ∧ s.byte (6 + 5) = 0x16 ∧ s.cserrAt (s.byte (6 + 4)) 4 6 = 0 ∧ vsqNum (s.byte 7) = 0) ∧
    (let s := recState { csmode := 1, csgen := 0 } { Regs.zero with kind := 3, hasasdu := 1, ti := 0x99 }
     vsqNum s.regs.vsq = 0 ∧ s.regs.kind = 3 ∧ s.regs.hasasdu = 1) := by decide

theorem test_witness_ChecksumMismatch :
    (let s := wireState 2 [0x10, 0x49, 1, 0x4B, 0x16]
     s.cfg.csmode = 2 ∧ s.wlen.toNat ≤ s.par.bufsz ∧ s.wlen = 5 ∧ s.byte 0 = 0x10 ∧ s.byte 4 = 0x16 ∧
       (s.byte 3).toNat ≠ s.sumAt 1 2) ∧
    (let s := wireState 2 [0x68, 2, 2, 0x68, 0x0B, 1, 0x00, 0x16]
     s.cfg.csmode = 2 ∧ s.wlen.toNat ≤ s.par.bufsz ∧ (s.byte 1).toNat = 2 ∧ s.wlen.toNat = 2 + 6 ∧ s.byte 0 = 0x68 ∧
       s.byte 2 = s.byte 1 ∧ s.byte 3 = 0x68 ∧ s.byte (2 + 5) = 0x16 ∧ (s.byte (2 + 4)).toNat ≠ s.sumAt 4 2) ∧
    (let s := recState { csmode := 2, csgen := 0 } { Regs.zero with kind := 2, cs := 1 }
     s.cfg.csgen = 0 ∧ s.regs.kind = 2 ∧ s.regs.cs ≠ s.regs.ctrl + s.regs.laddr) ∧
    (let s := recState { csmode := 2, csgen := 0 } { Regs.zero with kind := 3, ctrl := 0x0B, laddr := 1 }
     s.regs.kind = 3 ∧ s.regs.hasasdu = 0 ∧ s.regs.cs ≠ s.regs.ctrl + s.regs.laddr) := by decide

theorem test_witness_ChecksumMismatch_asdu :
    let s := recState { csmode := 2, csgen := 0 } { Regs.zero with kind := 3, hasasdu := 1, ti := 1, vsq := 1 }
    s.cfg.csmode = 2 ∧ s.cfg.csgen = 0 ∧ s.regs.kind = 3 ∧ s.regs.hasasdu = 1 ∧
      ∃ p, encAsdu s.par s.regs s.slots = .ok p ∧ p.length ≤ 253 ∧ s.regs.cs ≠ cssum (s.regs.ctrl :: s.regs.laddr ::
        p) :=
  ⟨by decide, by decide, by decide, by decide, _, rfl, by decide⟩

theorem test_witness_ChecksumMismatch_other_modes :
    (wireState 1 [0xE5]).cfg.csmode ≠ 2 ∧ ∃ t, exec .decFrame (wireState 1 [0xE5]) = .next t := ⟨by decide, _, rfl⟩

theorem test_witness_ContentIsNeverAnError :
    [0xFF, 0xFF].length = [3, 1].length ∧ decAsdu specParams 0 (1 :: 1 :: [0xFF, 0xFF]) = .error ⟨.truncatedInput, 4⟩
      := by decide

theorem test_witness_ContentIsNeverAnError_frame :
    let w : List Byte := [0x68, 6, 6, 0x68, 8, 1, 1, 1, 3, 1, 0x0F, 0x16]
    let w' : List Byte := [0x68, 6, 6, 0x68, 0, 0, 1, 1, 0, 0, 0x00, 0x16]
    (1 : BitVec 2) ≠ 2 ∧ w'.length = w.length ∧ byteAt w' 0 = byteAt w 0 ∧ byteAt w 0 = 0x68 ∧ byteAt w' 1 = byteAt w
      1 ∧
      byteAt w' 2 = byteAt w 2 ∧ byteAt w' 3 = byteAt w 3 ∧ byteAt w' (6 + 5) = byteAt w (6 + 5) ∧
      byteAt w' 6 = byteAt w 6 ∧ byteAt w' 7 = byteAt w 7 ∧ decFrame specParams 1 w = .error ⟨.truncatedInput, 10⟩ :=
        by decide

theorem test_witness_ContentIsNeverAnError_fixed :
    byteAt [0x10, 1, 2, 3, 0] 0 = 0x10 ∧ byteAt [0x10, 9, 9, 9, 0] 4 = byteAt [0x10, 1, 2, 3, 0] 4 ∧
      decFrame specParams 1 [0x10, 1, 2, 3, 0] = .error ⟨.unterminatedFrame, 4⟩ := by decide

/-- Two records with the same KIND, HASASDU, TI and VSQ and different content. -/
theorem test_witness_ContentIsNeverAnError_encode :
    let r := { Regs.zero with kind := 3, hasasdu := 1, ti := 2, vsq := 0x81 }
    let r' := { r with ctrl := 1, laddr := 2, cs := 3, cotb := 4, ca := 5 }
    r'.kind = r.kind ∧ r'.hasasdu = r.hasasdu ∧ r'.ti = r.ti ∧ r'.vsq = r.vsq ∧
      encAsdu specParams r State.reset.slots = .error ⟨.illegalSequenceMode, 0⟩ ∧ (1 : BitVec 2) ≠ 2 ∧
      encFrame specParams { csmode := 1, csgen := 0 } r State.reset.slots = .error ⟨.illegalSequenceMode, 0⟩ :=
  ⟨rfl, rfl, rfl, rfl, rfl, by decide, rfl⟩

theorem test_witness_HeaderFields : ∃ d, decAsdu specParams 6 [1, 0x81, 0xC3, 1, 0xFF, 0xFF, 0xFE] = .ok d := ⟨_, rfl⟩

theorem test_witness_TimeTagFields :
    (Kind.cp56 = .cp56 ∧ [0xFF, 0xFF, 0xFF, 0xFF, 0xFF, 0xFF, (0xFF : Byte)] = [0xFF, 0xFF, 0xFF, 0xFF, 0xFF, 0xFF,
      0xFF]) ∧
      65535 < 65536 ∧ 63 < 64 ∧ 31 < 32 ∧ 127 < 128 := by decide

theorem test_witness_ElementRoundTrip :
    (specTables 1782).layouts = specLayouts ∧ specParams.valid = true ∧ 7 < 8 * specParams.kindSize .siq ∧
      [0xFF, 0xFF, 0xFF, 0xFF, 0xFF, 0xFF, 0xFF].length = specParams.kindSize .cp56 ∧
      specParams.fieldOf .siq .res = some ⟨1, 3⟩ ∧ (7 : Nat) < 2 ^ 3 ∧ 2 ^ 3 ≤ 8 :=
  ⟨rfl, specParams_valid, by decide⟩

theorem test_witness_ElementRoundTrip_record :
    ∀ f b, specParams.fieldOf .bcr f = some b → (fun _ : Field => 1) f < 2 ^ b.width := by
  intro f b h
  have h : assoc f (specLayouts.get .bcr).fields = some b := h
  cases f <;> simp [specLayouts, Layouts.get, assoc] at h <;> subst h <;> decide

theorem test_witness_FieldViewReads :
    (let s := recState { csmode := 1, csgen := 0 } { Regs.zero with ti := 40 }
     s.par.valid = true ∧ 126 < Config.nslot ∧ s.par.lookup s.regs.ti = some rowMEpTf1 ∧
       rowMEpTf1.group = [.oci, .qdp] ++ Kind.cp16 :: [.cp56] ∧ s.par.fieldOf .cp16 .ms = some ⟨0, 16⟩ ∧
       Kind.siq ∉ rowMEpTf1.group ∧ s.par.fieldOf .cp16 .iv = none) ∧
      State.reset.par.lookup State.reset.regs.ti = none ∧ Config.nslot ≤ 127 :=
  ⟨⟨specParams_valid, by decide⟩, by decide⟩

theorem test_witness_FieldViewWrites :
    let s := recState { csmode := 1, csgen := 0 } { Regs.zero with ti := 45 }
    s.par.valid = true ∧ (s.par.fldPlace s.regs.ti .sco .se = some ⟨7, 1⟩ ∧ 126 < Config.nslot ∧ 1 < 2 ^ 1) ∧
      ((Kind.sco, Field.qu) ≠ (.sco, .se)) ∧ (11 < Config.gmax ∧ 7 < 8 ∧ ¬ (7 ≤ 8 * 11 + 7 ∧ 8 * 11 + 7 < 7 + 1)) ∧
      s.par.fldPlace s.regs.ti .siq .iv = none ∧ Config.nslot ≤ 127 ∧ 2 ^ 1 ≤ 2 :=
  ⟨specParams_valid, by decide⟩

theorem test_witness_AsduSizeFormula :
    specParams.valid = true ∧
      ∃ b, encAsdu specParams { Regs.zero with ti := 33, vsq := 1 } State.reset.slots = .ok b ∧ b.length = 18 :=
  ⟨specParams_valid, _, rfl, by decide⟩

theorem test_witness_AsduRoundTrip :
    specParams.valid = true ∧ (∃ d, decAsdu specParams 6 [1, 0x81, 3, 1, 0xFF, 0xFF, 0xFE] = .ok d) ∧
      ∃ b, encAsdu specParams { Regs.zero with ti := 13, vsq := 0x82 } State.reset.slots = .ok b :=
  ⟨specParams_valid, ⟨_, rfl⟩, ⟨_, rfl⟩⟩

theorem test_witness_FrameRoundTrip :
    specParams.valid = true ∧ (∃ x, decFrame specParams 2 frameBytes = .ok x) ∧
      (∃ b c, encFrame specParams { csmode := 2, csgen := 0 } { Regs.zero with kind := 2 } State.reset.slots =
        .ok (b, c)) ∧
      ∃ b c, encFrame specParams { csmode := 0, csgen := 1 }
        { Regs.zero with kind := 3, hasasdu := 1, ti := 1, vsq := 1, cs := 9 } State.reset.slots = .ok (b, c) :=
  ⟨specParams_valid, ⟨_, rfl⟩, ⟨_, _, rfl⟩, ⟨_, _, rfl⟩⟩

theorem test_witness_CommandComposition :
    (wireState 1 frameBytes).par.valid = true ∧
    Memory.wf (wireState 1 frameBytes).par.bufsz (wireState 1 frameBytes).wire = true ∧
    (wireState 1 frameBytes).cfg.csgen = 0 ∧
    (∃ t, exec .decFrame (wireState 1 frameBytes) = .next t ∧ t.status.st = 1 ∧ t.regs.kind = 3 ∧ t.regs.hasasdu = 1) ∧
    (∃ t, exec .decAsdu (wireState 1 [1, 1, 3, 1, 1, 0, 1]) = .next t ∧ t.status.st = 1) ∧
    (∃ t, exec .decFrame (wireState 1 [0x00]) = .next t ∧ t.status.st = 2) ∧
    ∃ t, exec .decAsdu (wireState 1 [0x00]) = .next t ∧ t.status.st = 2 :=
  ⟨specParams_valid, by decide, by decide, ⟨_, rfl, by decide⟩, ⟨_, rfl, by decide⟩, ⟨_, rfl, by decide⟩,
    ⟨_, rfl, by decide⟩⟩

/-- Two different register states with one view: the registers that KIND = 1 does not use differ. -/
theorem test_witness_ViewDeterminesEncoding :
    view specParams { Regs.zero with kind := 1, ti := 9 } State.reset.slots = some (.frame (.singleChar 0)) ∧
      view specParams { Regs.zero with kind := 1 } State.reset.slots = some (.frame (.singleChar 0)) := by decide

/-- The same for `view_asdu`: KIND differs. -/
theorem test_witness_ViewDeterminesEncoding_asdu :
    ∃ a, viewAsdu specParams { Regs.zero with kind := 4, ti := 1, vsq := 1 } State.reset.slots = some a ∧
      viewAsdu specParams { Regs.zero with kind := 3, ti := 1, vsq := 1 } State.reset.slots = some a := ⟨_, rfl, rfl⟩

/-- A state other than reset that satisfies the invariant, and steps. -/
theorem test_witness_StepKeepsInv :
    let s := { wireState 2 frameBytes with pending := [.start 0] }
    Inv s ∧ ∃ t, step s = .next t :=
  ⟨⟨specParams_valid, by decide, by decide, by decide, by unfold Status.legal; decide⟩, _, rfl⟩

theorem test_witness_RunsForever : Inv { wireState 2 frameBytes with pending := [.start 0, .start 1] } :=
  ⟨specParams_valid, by decide, by decide, by decide, by unfold Status.legal; decide⟩

/-- Two states with the same WIRE and different records. -/
theorem test_witness_DecodeForgetsHistory :
    let s := wireState 1 frameBytes
    let s' := { s with regs := { Regs.zero with kind := 5, ti := 9 }, cmd := 3 }
    s'.par = s.par ∧ s'.wlen = s.wlen ∧ (∀ k, k < s.wlen.toNat → s'.byte k = s.byte k) ∧
      s'.cfg.csmode = s.cfg.csmode ∧
      (∃ t, exec .decFrame s = .next t ∧ t.status.st = 1) ∧ (∃ t', exec .decFrame s' = .next t') ∧
      (∃ t, exec .decAsdu s = .next t) ∧ ∃ t', exec .decAsdu s' = .next t' :=
  ⟨rfl, rfl, fun _ _ => rfl, rfl, ⟨_, rfl, by decide⟩, ⟨_, rfl⟩, ⟨_, rfl⟩, ⟨_, rfl⟩⟩

theorem test_witness_ResetValues :
    ∃ u w l, u ≠ State.reset ∧ applyAccess (.reset w l) u ≠ State.reset :=
  ⟨wireState 1 frameBytes, [1], [], by decide, by decide⟩

theorem test_witness_StartAfterReset :
    ∃ s, s = applyAccess (.reset [0x68, 2, 2] []) (wireState 1 frameBytes) ∧ s.byte 0 = 0x68 := ⟨_, rfl, by decide⟩

theorem test_witness_HostWritesWireSide :
    (wireState 1 frameBytes).par.valid = true ∧
    Memory.wf (wireState 1 frameBytes).par.bufsz (wireState 1 frameBytes).wire = true ∧
      (let n := (wireState 1 frameBytes).par.bufsz
       2047 < n ∧ n ≤ 2048 ∧ n < 2049) ∧ 255 < 256 ∧ (2 : BitVec 2) ≠ 3 :=
  ⟨specParams_valid, by decide⟩

theorem test_witness_HostWritesRecordSide :
    7 < 2 ^ regWidth .kind ∧ 2 ^ regWidth .kind ≤ 8 ∧ RecReg.sc ≠ .kind ∧ 126 < Config.nslot ∧ 65535 < 65536 ∧
      11 < Config.gmax ∧ Config.nslot ≤ 127 ∧ Config.gmax ≤ 12 := by decide

end Sys2Proof.Machine.Tests
end

section
/-! PROOFS. The spec's registry column by column (spec/45_type_registry.md R220), and the ASDU-level decoder against any
registry that R6 allows (spec/30_encoding.md R93, R94). -/

namespace Sys2Proof

/-! ## Rows and columns of a registry -/

/-- Reading a column through the row lookup is looking the type identifier up in the list of (type identifier, entry)
pairs. -/
theorem findRow_map_eq_assoc {α : Type} (f : Row → α) (ti : Byte) (rs : List Row) :
    (findRow ti rs).map f = assoc ti.toNat (rs.map fun r => (r.ti.toNat, f r)) := by
  induction rs with
  | nil => rfl
  | cons r rs ih =>
    simp only [findRow, List.map_cons, assoc, BitVec.toNat_inj]
    split
    · rfl
    · exact ih

/-- In a registry whose type identifiers differ, a row is the one its type identifier finds. -/
theorem findRow_of_mem {rs : List Row} (hn : (rs.map Row.ti).Nodup) {row : Row} (h : row ∈ rs) :
    findRow row.ti rs = some row := by
  induction rs with
  | nil => cases h
  | cons r rs ih =>
    obtain ⟨hr, hrs⟩ := List.nodup_cons.mp hn
    rcases List.mem_cons.mp h with rfl | h
    · simp [findRow]
    · have hne : r.ti ≠ row.ti := fun e => hr (e ▸ List.mem_map_of_mem h)
      simp [findRow, hne, ih hrs h]

theorem typeIds_nodup : Config.typeIds.Nodup := by decide

/-- The rows of valid parameters are exactly what the lookup finds. -/
theorem Params.lookup_eq_some_iff {p : Params} (h : p.valid = true) {ti : Byte} {row : Row} :
    p.lookup ti = some row ↔ row ∈ p.registry ∧ row.ti = ti := by
  constructor
  · exact findRow_some
  · rintro ⟨mem, rfl⟩
    exact findRow_of_mem (Params.valid_keys h ▸ typeIds_nodup) mem

/-- The type identifiers whose row passes a test, read off the registry's list. -/
theorem Params.lookup_test_iff {p : Params} (h : p.valid = true) (ti : Byte) (f : Row → Bool) :
    (∃ row, p.lookup ti = some row ∧ f row = true) ↔
      ti.toNat ∈ (p.registry.filter f).map fun r => r.ti.toNat := by
  simp only [Params.lookup_eq_some_iff h, List.mem_map, List.mem_filter, BitVec.toNat_inj]
  exact exists_congr fun row => and_right_comm

theorem Params.seqLegal_iff {p : Params} (h : p.valid = true) (ti : Byte) :
    p.seqLegal ti = true ↔ ti.toNat ∈ (p.registry.filter Row.seqLegal).map fun r => r.ti.toNat := by
  rw [← Params.lookup_test_iff h, Params.seqLegal]
  cases p.lookup ti <;> simp

theorem Params.timeTagOf_iff {p : Params} (h : p.valid = true) (ti : Byte) (t : TimeTag) :
    p.timeTagOf ti = some t ↔ ti.toNat ∈ (p.registry.filter fun r => r.tag == t).map fun r => r.ti.toNat := by
  rw [← Params.lookup_test_iff h, Params.timeTagOf]
  simp

/-- The 40 type identifiers as ranges (R220). -/
theorem mem_typeIds_iff (ti : Byte) : ti ∈ Config.typeIds ↔
    1 ≤ ti.toNat ∧ ti.toNat ≤ 21 ∨ 30 ≤ ti.toNat ∧ ti.toNat ≤ 40 ∨ 45 ≤ ti.toNat ∧ ti.toNat ≤ 51 ∨ ti.toNat = 70 := by
  simp only [Config.typeIds, List.mem_append, List.mem_cons, List.not_mem_nil, or_false]
  bv_omega

/-! ## The columns of R220 -/

theorem specParams_seqLegal_iff (ti : Byte) :
    specParams.seqLegal ti = true ↔ ti.toNat ∈ [1, 3, 5, 7, 9, 11, 13, 15, 20, 21] :=
  Params.seqLegal_iff specParams_valid ti

theorem specParams_cp24_iff (ti : Byte) :
    specParams.timeTagOf ti = some .cp24 ↔ ti.toNat ∈ [2, 4, 6, 8, 10, 12, 14, 16, 17, 18, 19] :=
  Params.timeTagOf_iff specParams_valid ti .cp24

theorem specParams_cp56_iff (ti : Byte) :
    specParams.timeTagOf ti = some .cp56 ↔ 30 ≤ ti.toNat ∧ ti.toNat ≤ 40 := by
  have column : specParams.timeTagOf ti = some .cp56 ↔ ti.toNat ∈ [30, 31, 32, 33, 34, 35, 36, 37, 38, 39, 40] :=
    Params.timeTagOf_iff specParams_valid ti .cp56
  rw [column]
  simp only [List.mem_cons, List.not_mem_nil, or_false]
  omega

/-- Settles O47: each column of the table is read off the registry's list of rows. -/
theorem registryColumns : Obligations.RegistryColumns := by
  refine ⟨fun ti => ?known, specParams_seqLegal_iff, specParams_cp24_iff, specParams_cp56_iff,
    fun ti => findRow_map_eq_assoc Row.group ti specRegistry, rfl, rfl, fun n => specTables_valid⟩
  case known => exact (Params.valid_known specParams_valid ti).trans (mem_typeIds_iff ti)

/-! ## The instruction of a type identifier and a VSQ byte -/

/-- A VSQ byte is its two fields put together (R86, R181). -/
@[simp] theorem mkVsq_vsqSq_vsqNum (v : Byte) : mkVsq (vsqSq v) (vsqNum v) = v :=
  (BitVec.extractLsb'_append_extractLsb'_eq_extractLsb' rfl).trans BitVec.extractLsb'_eq_self

/-- The word of the instruction is the two bytes it was read from (R93). -/
theorem encode_of_typeInstr {ti vsq : Byte} {i : Instr} (h : typeInstr ti vsq = some i) : encode i = [ti, vsq] := by
  unfold typeInstr at h
  split at h <;> cases h
  all_goals
    rename ti.toNat = _ => key
    simp only [encode, mkVsq_vsqSq_vsqNum, List.cons.injEq, and_true]
    exact BitVec.eq_of_toNat_eq key.symm

/-- Each of the 40 type identifiers has an instruction, whatever the VSQ byte (R93). -/
theorem typeInstr_isSome {ti : Byte} (h : ti ∈ Config.typeIds) (vsq : Byte) : (typeInstr ti vsq).isSome = true := by
  have each : (Config.typeIds.all fun t => (typeInstr t vsq).isSome) = true := rfl
  exact List.all_eq_true.mp each ti h

/-! ## The decoder at the ASDU level -/

theorem decode_asdu_cons (rs : List Row) (ti vsq : Byte) (rest : List Byte) :
    decode rs .asdu (ti :: vsq :: rest) = decodeTypeWord rs ti vsq := rfl

theorem decodeTypeWord_of_unknown {rs : List Row} {ti : Byte} (h : findRow ti rs = none) (vsq : Byte) :
    decodeTypeWord rs ti vsq = .error .unknownTypeId := by
  simp [decodeTypeWord, h]

theorem decodeTypeWord_of_illegal {rs : List Row} {ti vsq : Byte} {row : Row} (h : findRow ti rs = some row)
    (hq : vsqSq vsq = 1) (hs : row.seqLegal = false) :
    decodeTypeWord rs ti vsq = .error .illegalSequenceMode := by
  simp [decodeTypeWord, h, hq, hs]

theorem decodeTypeWord_of_legal {rs : List Row} {ti vsq : Byte} {row : Row} {i : Instr}
    (h : findRow ti rs = some row) (hq : vsqSq vsq = 0 ∨ row.seqLegal = true) (hi : typeInstr ti vsq = some i) :
    decodeTypeWord rs ti vsq = .ok i := by
  have legal : ¬ (vsqSq vsq = 1 ∧ row.seqLegal = false) := by
    rintro ⟨h1, hs⟩
    rcases hq with h0 | hs'
    · simp [h0] at h1
    · simp [hs'] at hs
  simp only [decodeTypeWord, h, if_neg legal, hi]

/-- A type identifier that valid parameters have a row for is one of the 40. -/
theorem Params.mem_typeIds_of_lookup {p : Params} (h : p.valid = true) {ti : Byte} {row : Row}
    (hl : p.lookup ti = some row) : ti ∈ Config.typeIds :=
  (Params.valid_known h ti).mp (by simp [Params.known, hl])

/-- Settles O5: the registry's row decides which branch of the decoder a word takes, and a type identifier that has a
row is one of the 40 that have an instruction. -/
theorem decoderFollowsRegistry : Obligations.DecoderFollowsRegistry := by
  intro p ti vsq rest hp
  simp only [decode_asdu_cons]
  refine ⟨fun unknown => decodeTypeWord_of_unknown unknown vsq, fun row found => ⟨?illegal, ?legal⟩⟩
  case illegal => exact decodeTypeWord_of_illegal found
  case legal =>
    intro hq
    have known := Params.mem_typeIds_of_lookup hp found
    obtain ⟨i, hi⟩ := Option.isSome_iff_exists.mp (typeInstr_isSome known vsq)
    exact ⟨i, decodeTypeWord_of_legal found hq hi, encode_of_typeInstr hi⟩

end Sys2Proof
end

section
/-! PROOFS. What an operation runs, what it leaves alone and what it depends on: the decode and encode frames of every
instruction (spec/10_state.md R32 to R37), the addresses of a sequence (R30, R188), and a decode as a function of the
bytes it is given (R22, R33, R98). -/

namespace Sys2Proof.Machine

/-! ## The VSQ byte's fields (R181) -/

@[simp] theorem vsqSq_mkVsq (sq : Bit) (num : BitVec 7) : vsqSq (mkVsq sq num) = sq := by
  unfold vsqSq mkVsq
  exact BitVec.extractLsb'_append_eq_left

@[simp] theorem vsqNum_mkVsq (sq : Bit) (num : BitVec 7) : vsqNum (mkVsq sq num) = num := by
  unfold vsqNum mkVsq
  exact BitVec.extractLsb'_append_eq_right

@[simp] theorem asduRegs_vsq (r : Regs) (a : Asdu) : (asduRegs r a).vsq = mkVsq a.sq a.num := rfl

/-! ## What an instruction runs -/

theorem exec_of_link {i : Instr} (h : i.level = .link) (s : State) :
    exec i s = decodeFrameOp (nonEmpty (decLinkInstr s.par i)) s := by
  cases i <;> cases h <;> rfl

theorem exec_of_asdu {i : Instr} (h : i.level = .asdu) (s : State) :
    exec i s = decodeAsduOp (decAsduInstr s.par i 0) s := by
  cases i <;> cases h <;> rfl

theorem exec_decFrame (s : State) : exec .decFrame s = decodeFrameOp (decFrame s.par) (s.setCmd 0) := rfl

theorem exec_decAsdu (s : State) : exec .decAsdu s = decodeAsduOp (decAsdu s.par 0) (s.setCmd 2) := rfl

theorem exec_encFrame (s : State) :
    exec .encFrame s = .next (encodeOp (encFrame s.par s.cfg s.regs s.slots) (s.setCmd 1)) := rfl

theorem exec_encAsdu (s : State) :
    exec .encAsdu s = .next (encodeOp (bareResult (encAsdu s.par s.regs s.slots)) (s.setCmd 3)) := rfl

theorem cmdAfter_of_level {i : Instr} (h : i.level ≠ .cmd) (s : State) : cmdAfter i s = s.cmd := by
  have notFrame : i ≠ .decFrame := fun e => h (e ▸ rfl)
  have notAsdu : i ≠ .decAsdu := fun e => h (e ▸ rfl)
  rw [cmdAfter, if_neg notFrame, if_neg notAsdu]

/-- A decoding instruction is one of the two decode frames, run on the state in which CMD is set. -/
theorem exec_of_decodes {i : Instr} (h : Decodes i) (s : State) :
    (∃ f, exec i s = decodeFrameOp f (s.setCmd (cmdAfter i s))) ∨
      (∃ f, exec i s = decodeAsduOp f (s.setCmd (cmdAfter i s))) := by
  rcases h with h | rfl | rfl
  case inl =>
    rw [cmdAfter_of_level h]
    cases hl : i.level with
    | link => exact .inl ⟨_, exec_of_link hl s⟩
    | asdu => exact .inr ⟨_, exec_of_asdu hl s⟩
    | cmd => exact absurd hl h
  case inr.inl => exact .inl ⟨_, exec_decFrame s⟩
  case inr.inr => exact .inr ⟨_, exec_decAsdu s⟩

/-! ## The frame of a decode -/

/-- The slots a frame's decode keeps are those from NUM of the record it leaves up (R271). -/
theorem frameSlots_of_ge (v : Vector Slot Config.nslot) (f : Frame) (len : Byte) {j : Nat} (h : j < Config.nslot)
    (hj : (vsqNum (frameRegs f len).vsq).toNat ≤ j) : (frameSlots v f)[j] = v[j] := by
  rcases f with _ | _ | _ | ⟨c, a, cs, _ | d⟩
  case variableFrame.some =>
    simp only [frameRegs, asduRegs_vsq, vsqNum_mkVsq] at hj
    exact storeObjs_of_ge v d j h hj
  all_goals rfl

/-- The slots a frame's decode writes do not depend on what the object store held (R271). -/
theorem frameSlots_of_lt (v v' : Vector Slot Config.nslot) (f : Frame) (len : Byte) {j : Nat} (h : j < Config.nslot)
    (hj : j < (vsqNum (frameRegs f len).vsq).toNat) : (frameSlots v' f)[j] = (frameSlots v f)[j] := by
  rcases f with _ | _ | _ | ⟨c, a, cs, _ | d⟩
  case variableFrame.some =>
    simp only [frameRegs, asduRegs_vsq, vsqNum_mkVsq] at hj
    exact (storeObjs_of_lt v' d j h hj).trans (storeObjs_of_lt v d j h hj).symm
  all_goals exact absurd hj (Nat.not_lt_zero j)

/-- What both decode frames leave alone: the wire side, CMD, and the slots from NUM of the record up. -/
def DecodeKeeps (s t : State) : Prop :=
  KeepsWireSide s t ∧ t.cmd = s.cmd ∧
    ∀ j (h : j < Config.nslot), (vsqNum t.regs.vsq).toNat ≤ j → t.slots[j] = s.slots[j]

theorem DecodeKeeps.par {s t : State} (h : DecodeKeeps s t) : t.par = s.par := by
  obtain ⟨⟨par, _⟩, _⟩ := h
  exact par

theorem failDecode_keeps (s : State) (e : CodecErr) : DecodeKeeps s (failDecode s e) :=
  ⟨⟨rfl, fun _ => rfl, rfl, rfl, rfl⟩, rfl, fun _ _ _ => rfl⟩

theorem loadFrame_keeps (s : State) (r : FrameResult) : DecodeKeeps s (loadFrame s r) :=
  ⟨⟨rfl, fun _ => rfl, rfl, rfl, rfl⟩, rfl, fun _ h hj => frameSlots_of_ge s.slots r.frame r.len h hj⟩

theorem loadBareAsdu_keeps (s : State) (a : Asdu) : DecodeKeeps s (loadBareAsdu s a) := by
  refine ⟨⟨rfl, fun _ => rfl, rfl, rfl, rfl⟩, rfl, fun j h hj => ?_⟩
  simp only [loadBareAsdu_regs, asduRegs_vsq, vsqNum_mkVsq] at hj
  exact storeObjs_of_ge s.slots a j h hj

theorem decodeFrameOp_keeps {f : BitVec 2 → List Byte → Except CodecErr FrameResult} {s t : State}
    (h : decodeFrameOp f s = .next t) : DecodeKeeps s t := by
  obtain ⟨_, _, ⟨r, _, rfl⟩ | ⟨e, _, rfl⟩⟩ := decodeFrameOp_next h
  · exact loadFrame_keeps s r
  · exact failDecode_keeps s e

theorem decodeAsduOp_keeps {f : List Byte → Except CodecErr Asdu} {s t : State} (h : decodeAsduOp f s = .next t) :
    DecodeKeeps s t := by
  obtain ⟨_, _, ⟨a, _, rfl⟩ | ⟨e, _, rfl⟩⟩ := decodeAsduOp_next h
  · exact loadBareAsdu_keeps s a
  · exact failDecode_keeps s e

/-- A decoding instruction leaves alone what its decode frame does, run on the state in which CMD is set. -/
theorem exec_keeps_of_decodes {i : Instr} {s t : State} (hi : Decodes i) (h : exec i s = .next t) :
    DecodeKeeps (s.setCmd (cmdAfter i s)) t := by
  rcases exec_of_decodes hi s with ⟨f, hf⟩ | ⟨f, hf⟩ <;> rw [hf] at h
  · exact decodeFrameOp_keeps h
  · exact decodeAsduOp_keeps h

/-- Settles O26: every decoding instruction is one of the two decode frames. -/
theorem decodeFrame : Obligations.DecodeFrame :=
  fun _ _ _ => exec_keeps_of_decodes

/-! ## The frame of an encode -/

theorem encodeOp_keeps (r : Except CodecErr (List Byte × Bit)) (s : State) :
    KeepsRecordSide s (encodeOp r s) ∧ (encodeOp r s).cmd = s.cmd := by
  obtain ⟨par, cfg, cmd, regs, slots, pending⟩ := encodeOp_frame r s
  exact ⟨⟨par, regs, slots, cfg, pending⟩, cmd⟩

/-- Bytes of WIRE above what an encode produced are kept (R65). -/
theorem encodeOp_ok_byte {r : Except CodecErr (List Byte × Bit)} {s : State} {b : List Byte} {c : Bit}
    (hwf : Memory.wf s.par.bufsz s.wire = true) (hr : r = .ok (b, c)) {k : Nat} (hk : b.length ≤ k) :
    (encodeOp r s).byte k = s.byte k := by
  subst hr
  exact (Memory.read_writeBytes b 0 k hwf).trans (if_neg (by omega))

theorem encodeOp_error_byte {r : Except CodecErr (List Byte × Bit)} {e : CodecErr} (hr : r = .error e) (s : State)
    (k : Nat) : (encodeOp r s).byte k = s.byte k := by
  subst hr; rfl

/-- Settles O27: an encode writes the codec's bytes from offset 0 up, or nothing. -/
theorem encodeFrame : Obligations.EncodeFrame := by
  intro s t hwf
  refine ⟨fun h => ?encFrame, fun h => ?encAsdu⟩
  case encFrame =>
    rw [exec_encFrame] at h
    cases h
    obtain ⟨record, cmd⟩ := encodeOp_keeps (encFrame s.par s.cfg s.regs s.slots) (s.setCmd 1)
    exact ⟨record, cmd, fun b c ok k => encodeOp_ok_byte (s := s.setCmd 1) hwf ok,
      fun e error => encodeOp_error_byte error _⟩
  case encAsdu =>
    rw [exec_encAsdu] at h
    cases h
    obtain ⟨record, cmd⟩ := encodeOp_keeps (bareResult (encAsdu s.par s.regs s.slots)) (s.setCmd 3)
    exact ⟨record, cmd, fun b ok k => encodeOp_ok_byte (s := s.setCmd 3) hwf (congrArg bareResult ok),
      fun e error => encodeOp_error_byte (congrArg bareResult error) _⟩

/-! ## What an ASDU decode answers -/

/-- The decode of an ASDU-level instruction is its type's, with the fields of the word's VSQ byte (R184). -/
theorem decAsduInstr_of_word {i : Instr} {ti vsq : Byte} (h : i.asduWord = some (ti, vsq)) (p : Params) (a : Nat)
    (w : List Byte) : decAsduInstr p i a w = decTyped p ti (vsqSq vsq) (vsqNum vsq) a w := by
  cases i <;> cases h <;> (try rw [vsqSq_mkVsq, vsqNum_mkVsq]) <;> rfl

theorem decAsduInstr_of_no_word {i : Instr} (h : i.asduWord = none) (p : Params) (a : Nat) (w : List Byte) :
    decAsduInstr p i a w = .error ⟨.unknownTypeId, a⟩ := by
  cases i <;> cases h <;> rfl

/-- The objects of a decoded ASDU are the object list of its own SQ and NUM, after the four header bytes (R184). -/
theorem decTyped_ok_objs {p : Params} {ti : Byte} {sq : Bit} {num : BitVec 7} {a : Nat} {w : List Byte} {d : Asdu}
    (h : decTyped p ti sq num a w = .ok d) : ∃ g, d.objs = decObjs g d.sq d.num (w.drop 4) := by
  rcases decTyped_cases p ti sq num a w with ⟨_, h'⟩ | ⟨_, _, h'⟩ | ⟨_, _, _, h'⟩ | ⟨row, _, _, _, hc⟩
  case inr.inr.inr =>
    rcases hc with ⟨_, _, h'⟩ | ⟨_, ⟨_, h'⟩ | ⟨_, h'⟩ | ⟨_, h'⟩⟩ <;> rw [h'] at h <;> cases h
    exact ⟨p.gsize row, rfl⟩
  all_goals rw [h'] at h; cases h

/-- A decode that goes past the header is that of an instruction word. -/
theorem decAsdu_of_long {p : Params} {a : Nat} {w : List Byte} (hw : 4 ≤ w.length) (hn : vsqNum (byteAt w 1) ≠ 0) :
    (∃ e, decodeAsduWord p.registry w = .error e ∧ decAsdu p a w = .error (asduReject a w e)) ∨
      (∃ i, decodeAsduWord p.registry w = .ok i ∧ decAsdu p a w = decAsduInstr p i a w) := by
  simp only [decAsdu, if_neg (Nat.not_lt.mpr hw), if_neg hn]
  cases decodeAsduWord p.registry w with
  | error e => exact .inl ⟨e, rfl, rfl⟩
  | ok i => exact .inr ⟨i, rfl, rfl⟩

/-- All `dec_asdu` can answer: an error of the header or of the word at a position of the region, or what the decode of
one type answers (R184). -/
theorem decAsdu_cases (p : Params) (a : Nat) (w : List Byte) :
    (∃ e, decAsdu p a w = .error e ∧ e.pos ≤ a + w.length) ∨
      ∃ ti sq num, decAsdu p a w = decTyped p ti sq num a w := by
  by_cases short : w.length < 4
  · exact .inl ⟨_, if_pos short, Nat.le_refl _⟩
  by_cases zero : vsqNum (byteAt w 1) = 0
  · exact .inl ⟨⟨.vsqNumberZero, a + 1⟩, by simp only [decAsdu, if_neg short, if_pos zero], by simp only; omega⟩
  rcases decAsdu_of_long (p := p) (a := a) (by omega) zero with ⟨e, _, he⟩ | ⟨i, _, hi⟩
  · exact .inl ⟨_, he, by cases e <;> simp only [asduReject] <;> omega⟩
  · rw [hi]
    cases hw : i.asduWord with
    | none => exact .inl ⟨_, decAsduInstr_of_no_word hw p a w, Nat.le_add_right _ _⟩
    | some word => exact .inr ⟨_, _, _, decAsduInstr_of_word hw p a w⟩

theorem decAsdu_ok_objs {p : Params} {a : Nat} {w : List Byte} {d : Asdu} (h : decAsdu p a w = .ok d) :
    ∃ g, d.objs = decObjs g d.sq d.num (w.drop 4) := by
  rcases decAsdu_cases p a w with ⟨e, he, _⟩ | ⟨_, _, _, ht⟩
  · rw [he] at h; cases h
  · exact decTyped_ok_objs (ht ▸ h)

/-! ## The addresses of a sequence (R30, R188) -/

theorem ioa_toNat (base : Addr) (i : Nat) : (ioa base i).toNat = (base.toNat + i) % 65536 := by
  rw [ioa, BitVec.toNat_add, BitVec.toNat_ofNat, Nat.add_mod_mod]

/-- What a sequence stores in ADDR[i], from what it stores in ADDR[0] (R30). -/
theorem Objs.sequence_addr_toNat (base : Addr) (gs : List (List Byte)) (i : Nat) :
    ((Objs.sequence base gs).addr i).toNat = (((Objs.sequence base gs).addr 0).toNat + i) % 65536 := by
  simp only [Objs.addr, ioa_toNat, Nat.add_zero, Nat.mod_add_mod]

theorem decObjs_of_sq {g : Nat} {sq : Bit} {num : BitVec 7} {w : List Byte} (h : sq = 1) :
    decObjs g sq num w = .sequence (le16 w 0) (decGroups g num.toNat (w.drop 2)) := by
  rw [h]; rfl

/-- Settles O20: with SQ = 1 the decoded objects are a sequence, whose addresses count up from its base. -/
theorem sequenceAddresses : Obligations.SequenceAddresses := by
  intro s t h hst hsq i hi hnum
  rw [exec_decAsdu] at h
  obtain ⟨w, _, ⟨a, ok, rfl⟩ | ⟨e, _, rfl⟩⟩ := decodeAsduOp_next h
  · simp only [loadBareAsdu_regs, asduRegs_vsq, vsqSq_mkVsq, vsqNum_mkVsq] at hsq hnum
    obtain ⟨g, objs⟩ := decAsdu_ok_objs ok
    rw [decObjs_of_sq hsq] at objs
    simp only [loadBareAsdu_slots]
    rw [storeObjs_of_lt _ a i hi hnum, storeObjs_of_lt _ a 0 (by decide) (Nat.zero_lt_of_lt hnum), objs]
    exact Objs.sequence_addr_toNat _ (decGroups g a.num.toNat ((w.drop 4).drop 2)) i
  · simp at hst

/-! ## A decode depends on the bytes it is given alone (R22, R33) -/

theorem Memory.readBytes_congr {m m' : Memory} {n : Nat} (h : ∀ k, k < n → Memory.read m' k = Memory.read m k) :
    Memory.readBytes m' 0 n = Memory.readBytes m 0 n := by
  refine bytes_ext (by simp) fun i hi => ?_
  have hi' : i < n := by simpa using hi
  rw [Memory.byteAt_readBytes _ _ _ _ hi', Memory.byteAt_readBytes _ _ _ _ hi', Nat.zero_add, h i hi']

theorem readWire_congr_bytes {s s' : State} (hp : s'.par = s.par) (hl : s'.wlen = s.wlen)
    (hb : ∀ k, k < s.wlen.toNat → s'.byte k = s.byte k) : readWire s' = readWire s := by
  rw [readWire, readWire, hp, hl, Memory.readBytes_congr hb]

/-- The same STATUS, the same scalar registers and the same slots in use. -/
def SameRecord (t t' : State) : Prop :=
  t'.status = t.status ∧ t'.regs = t.regs ∧
    ∀ j (h : j < Config.nslot), j < (vsqNum t.regs.vsq).toNat → t'.slots[j] = t.slots[j]

theorem failDecode_sameRecord (s s' : State) (e : CodecErr) : SameRecord (failDecode s e) (failDecode s' e) :=
  ⟨rfl, rfl, fun j _ hj => absurd hj (Nat.not_lt_zero j)⟩

theorem loadFrame_sameRecord (s s' : State) (r : FrameResult) : SameRecord (loadFrame s r) (loadFrame s' r) :=
  ⟨rfl, rfl, fun _ h hj => frameSlots_of_lt s.slots s'.slots r.frame r.len h hj⟩

theorem loadBareAsdu_sameRecord (s s' : State) (a : Asdu) : SameRecord (loadBareAsdu s a) (loadBareAsdu s' a) := by
  refine ⟨rfl, rfl, fun j h hj => ?_⟩
  simp only [loadBareAsdu_regs, asduRegs_vsq, vsqNum_mkVsq] at hj
  exact (storeObjs_of_lt s'.slots a j h hj).trans (storeObjs_of_lt s.slots a j h hj).symm

theorem decodeFrameOp_sameRecord {f : BitVec 2 → List Byte → Except CodecErr FrameResult} {s s' t t' : State}
    (hw : readWire s' = readWire s) (hm : s'.cfg.csmode = s.cfg.csmode) (h : decodeFrameOp f s = .next t)
    (h' : decodeFrameOp f s' = .next t') : SameRecord t t' := by
  obtain ⟨w, read, answer⟩ := decodeFrameOp_next h
  have read' := hw.trans read
  rcases answer with ⟨r, ok, rfl⟩ | ⟨e, error, rfl⟩
  · rw [decodeFrameOp_ok read' (hm ▸ ok)] at h'
    cases h'
    exact loadFrame_sameRecord s s' r
  · rw [decodeFrameOp_error read' (hm ▸ error)] at h'
    cases h'
    exact failDecode_sameRecord s s' e

theorem decodeAsduOp_sameRecord {f : List Byte → Except CodecErr Asdu} {s s' t t' : State}
    (hw : readWire s' = readWire s) (h : decodeAsduOp f s = .next t) (h' : decodeAsduOp f s' = .next t') :
    SameRecord t t' := by
  obtain ⟨w, read, answer⟩ := decodeAsduOp_next h
  have read' := hw.trans read
  rcases answer with ⟨a, ok, rfl⟩ | ⟨e, error, rfl⟩
  · rw [decodeAsduOp_ok read' ok] at h'
    cases h'
    exact loadBareAsdu_sameRecord s s' a
  · rw [decodeAsduOp_error read' error] at h'
    cases h'
    exact failDecode_sameRecord s s' e

/-- Settles O56: the two states give a decode the same bytes, and what it then loads or takes is a function of them. -/
theorem decodeForgetsHistory : Obligations.DecodeForgetsHistory := by
  intro s s' t t' hp hl hb
  have same := readWire_congr_bytes hp hl hb
  refine ⟨fun h h' hm => ?decFrame, fun h h' => ?decAsdu⟩
  case decFrame =>
    rw [exec_decFrame] at h h'
    rw [hp] at h'
    exact decodeFrameOp_sameRecord (s := s.setCmd 0) (s' := s'.setCmd 0) same hm h h'
  case decAsdu =>
    rw [exec_decAsdu] at h h'
    rw [hp] at h'
    exact decodeAsduOp_sameRecord (s := s.setCmd 2) (s' := s'.setCmd 2) same h h'

end Sys2Proof.Machine
end

section
/-! PROOFS. The invariant (spec/10_state.md R22 to R25, R32; spec/60_exceptions.md R291): an error is never found past
the bytes a decode was given, an encode's bytes fit in WIRE, and so every operation, and every step, keeps it. -/

namespace Sys2Proof.Machine

/-! ## Where an error is found: never past the bytes the decode was given (R291) -/

theorem decAsdu_pos {p : Params} {a : Nat} {w : List Byte} {e : CodecErr} (h : decAsdu p a w = .error e) :
    e.pos ≤ a + w.length := by
  rcases decAsdu_cases p a w with ⟨e', he, hpos⟩ | ⟨_, _, _, ht⟩
  · rw [he] at h; cases h; exact hpos
  · exact decTyped_pos (ht ▸ h)

theorem decSingle_pos {neg : Bit} {w : List Byte} {e : CodecErr} (h : decSingle neg w = .error e) :
    e.pos ≤ w.length := by
  unfold decSingle at h
  split at h <;> cases h
  simp only; omega

theorem decFixed_pos {m : BitVec 2} {w : List Byte} {e : CodecErr} (h : decFixed m w = .error e) :
    e.pos ≤ w.length := by
  unfold decFixed at h
  split at h
  · cases h; exact Nat.le_refl _
  · repeat' split at h
    all_goals cases h
    all_goals simp only; omega

theorem decPayload_pos {p : Params} {L : Nat} {w : List Byte} {e : CodecErr} (h : decPayload p L w = .error e) :
    e.pos ≤ 6 + (slice w 6 (L + 4)).length := by
  unfold decPayload at h
  split at h
  · cases h
  · split at h <;> cases h
    exact decAsdu_pos (by assumption)

theorem decVariableBody_pos {p : Params} {m : BitVec 2} {L : Nat} {w : List Byte} {e : CodecErr}
    (h : decVariableBody p m L w = .error e) : e.pos ≤ w.length := by
  unfold decVariableBody at h
  split at h
  · cases h; exact Nat.le_refl _
  · rename_i long
    repeat' split at h
    all_goals cases h
    case h_1.refl payload =>
      have := decPayload_pos payload
      rw [slice_length] at this
      omega
    all_goals simp only; omega

theorem decVariable_pos {p : Params} {m : BitVec 2} {w : List Byte} {e : CodecErr}
    (h : decVariable p m w = .error e) : e.pos ≤ w.length := by
  unfold decVariable at h
  split at h
  · cases h; exact Nat.le_refl _
  · repeat' split at h
    case isFalse.isFalse.isFalse.isFalse.isFalse => exact decVariableBody_pos h
    all_goals cases h
    all_goals simp only; omega

theorem decLinkInstr_pos {p : Params} {i : Instr} {m : BitVec 2} {w : List Byte} {e : CodecErr}
    (h : decLinkInstr p i m w = .error e) : e.pos ≤ w.length := by
  cases i
  case ack => exact decSingle_pos h
  case nack => exact decSingle_pos h
  case fixedFrame => exact decFixed_pos h
  case variableFrame => exact decVariable_pos h
  all_goals cases h; exact Nat.zero_le _

theorem decFrame_pos {p : Params} {m : BitVec 2} {w : List Byte} {e : CodecErr} (h : decFrame p m w = .error e) :
    e.pos ≤ w.length := by
  unfold decFrame at h
  split at h
  · rename_i r _
    cases h
    cases r <;> exact Nat.zero_le _
  · exact decLinkInstr_pos h

/-! ## STATUS as the engine writes it (R25, R290) -/

theorem statusOk_legal (n : Nat) (c : Bit) : (statusOk c).legal n := by
  simp [Status.legal]

theorem ErrKind.code_bounds (e : ErrKind) : e.code.toNat ≤ 8 ∧ e.code ≠ 0 ∧ (e = .checksumMismatch ↔ e.code = 8) := by
  cases e <;> decide

/-- STATUS after reset (R44). -/
theorem idle_legal (n : Nat) : Status.legal n { st := 0, err := 0, cserr := 0, errpos := 0 } := by
  simp [Status.legal]

theorem statusErr_legal {n p : Nat} (e : ErrKind) (hp : p ≤ n) : (statusErr e p).legal n := by
  obtain ⟨le, pos, mismatch⟩ := e.code_bounds
  have errpos : (BitVec.ofNat 12 p).toNat ≤ n := (BitVec.toNat_ofNat p 12 ▸ Nat.mod_le _ _).trans hp
  refine ⟨?_, le, ?_, fun _ => pos, ?_, fun _ => ?_, errpos⟩
  case refine_4 =>
    rw [statusErr_cserr, statusErr_err, ← mismatch]
    split <;> simp_all
  all_goals simp

/-! ## Each update keeps the invariant when the new value is legal -/

section
variable {s : State} (hs : Inv s)
include hs

theorem Inv.setPending (l : List HostAction) : Inv (s.setPending l) := ⟨hs.par, hs.wire, hs.wlen, hs.csmode, hs.status⟩
theorem Inv.setCmd (op : BitVec 2) : Inv (s.setCmd op) := ⟨hs.par, hs.wire, hs.wlen, hs.csmode, hs.status⟩
theorem Inv.setRegs (r : Regs) : Inv (s.setRegs r) := ⟨hs.par, hs.wire, hs.wlen, hs.csmode, hs.status⟩
theorem Inv.setSlots (v : Vector Slot Config.nslot) : Inv (s.setSlots v) :=
  ⟨hs.par, hs.wire, hs.wlen, hs.csmode, hs.status⟩
theorem Inv.setStatus {x : Status} (hx : x.legal s.par.bufsz) : Inv (s.setStatus x) :=
  ⟨hs.par, hs.wire, hs.wlen, hs.csmode, hx⟩
theorem Inv.setCfg {c : Cfg} (hc : c.csmode ≠ 3) : Inv (s.setCfg c) := ⟨hs.par, hs.wire, hs.wlen, hc, hs.status⟩
theorem Inv.setWire {m : Memory} (hm : Memory.wf s.par.bufsz m = true) : Inv (s.setWire m) :=
  ⟨hs.par, hm, hs.wlen, hs.csmode, hs.status⟩
theorem Inv.setWlen {n : Nat} (hn : n ≤ s.par.bufsz) : Inv (s.setWlen n) :=
  ⟨hs.par, hs.wire, (BitVec.toNat_ofNat n 12 ▸ Nat.mod_le _ _).trans hn, hs.csmode, hs.status⟩

/-! ## Each operation keeps the invariant -/

theorem Inv.failDecode {e : CodecErr} (he : e.pos ≤ s.par.bufsz) : Inv (failDecode s e) :=
  (hs.setRegs _).setStatus (statusErr_legal e.kind he)

theorem Inv.failEncode (e : ErrKind) : Inv (failEncode s e) :=
  (hs.setWlen (Nat.zero_le _)).setStatus (statusErr_legal e (Nat.zero_le _))

theorem Inv.loadBareAsdu (a : Asdu) : Inv (loadBareAsdu s a) :=
  ((hs.setRegs _).setSlots _).setStatus (statusOk_legal _ _)

theorem Inv.loadFrame (r : FrameResult) : Inv (loadFrame s r) :=
  ((hs.setRegs _).setSlots _).setStatus (statusOk_legal _ _)

theorem Inv.storeWire {b : List Byte} (hb : b.length ≤ s.par.bufsz) (c : Bit) : Inv (storeWire s b c) :=
  ((hs.setWire (Memory.wf_writeBytes b 0 hs.wire)).setWlen hb).setStatus (statusOk_legal _ _)

/-- A decode is given at most BUFSZ bytes. -/
theorem Inv.readWire_length {w : List Byte} (hw : readWire s = some w) : w.length ≤ s.par.bufsz :=
  Machine.readWire_length hw ▸ hs.wlen

theorem Inv.decodeFrameOp {f : BitVec 2 → List Byte → Except CodecErr FrameResult} {t : State}
    (hf : ∀ m w e, f m w = .error e → e.pos ≤ w.length) (h : decodeFrameOp f s = .next t) : Inv t := by
  obtain ⟨w, hw, ⟨r, _, rfl⟩ | ⟨e, he, rfl⟩⟩ := decodeFrameOp_next h
  · exact hs.loadFrame r
  · exact hs.failDecode ((hf _ _ _ he).trans (hs.readWire_length hw))

theorem Inv.decodeAsduOp {f : List Byte → Except CodecErr Asdu} {t : State}
    (hf : ∀ w e, f w = .error e → e.pos ≤ w.length) (h : decodeAsduOp f s = .next t) : Inv t := by
  obtain ⟨w, hw, ⟨a, _, rfl⟩ | ⟨e, he, rfl⟩⟩ := decodeAsduOp_next h
  · exact hs.loadBareAsdu a
  · exact hs.failDecode ((hf _ _ he).trans (hs.readWire_length hw))

theorem Inv.encodeOp {r : Except CodecErr (List Byte × Bit)} (hr : ∀ b c, r = .ok (b, c) → b.length ≤ s.par.bufsz) :
    Inv (encodeOp r s) := by
  rcases encodeOp_cases r s with ⟨b, c, hb, h⟩ | ⟨e, _, h⟩ <;> rw [h]
  · exact hs.storeWire (hr b c hb) c
  · exact hs.failEncode e.kind

/-- RESET keeps the parameters and gives every other part a legal value, whatever it draws (R44). -/
theorem Inv.resetWith (w : List Byte) (l : List Slot) : Inv (resetWith s w l) :=
  ⟨hs.par, resetWith_wire_wf s w l, Nat.zero_le _, (show (1 : BitVec 2) ≠ 3 by decide), idle_legal _⟩

theorem Inv.applyAccess (a : Access) : Inv (applyAccess a s) := by
  rcases applyAccess_cases a s with h | ⟨k, b, _, _, _, h⟩ | ⟨v, _, hv, h⟩ | ⟨c, hc, h⟩ | ⟨r, h⟩ | ⟨x, h⟩ |
    ⟨w, l, _, h⟩ <;> rw [h]
  · exact hs
  · exact hs.setWire (Memory.wf_write k _ hs.wire)
  · exact hs.setWlen hv
  · exact hs.setCfg (hc.elim id fun same => same ▸ hs.csmode)
  · exact hs.setRegs r
  · exact hs.setSlots x
  · exact hs.resetWith w l

end

/-! ## The bytes of an encode fit in WIRE (R99) -/

theorem encAsdu_length {p : Params} {r : Regs} {v : Vector Slot Config.nslot} {b : List Byte} (hp : p.valid = true)
    (h : encAsdu p r v = .ok b) : b.length ≤ 1782 := by
  rcases encAsdu_cases p r v with ⟨_, h'⟩ | ⟨_, _, h'⟩ | ⟨_, _, _, _, _, h'⟩ | ⟨row, _, hl, _, h'⟩ <;>
    rw [h'] at h <;> cases h
  have size := Params.valid_gsize hp hl
  have objs := objsSize_le (vsqSq r.vsq) (vsqNum r.vsq) size.2
  rw [List.length_append, encObjs_length _ _ _ _ size.2]
  simp only [List.length_cons, List.length_nil]
  omega

theorem bareResult_ok {r : Except CodecErr (List Byte)} {b : List Byte} {c : Bit} (h : bareResult r = .ok (b, c)) :
    r = .ok b := by
  cases r <;> cases h
  rfl

/-! ## Every step -/

/-- All a step that goes on can be: idle, a command, or a host access (R279). -/
theorem step_next {s t : State} (h : step s = .next t) :
    t = s ∨ (∃ op rest, s.pending = .start op :: rest ∧ exec (decodeCmd op) (s.setPending rest) = .next t) ∨
      ∃ a rest, s.pending = .access a :: rest ∧ t = applyAccess a (s.setPending rest) := by
  unfold step at h
  split at h
  · cases h; exact .inl rfl
  · exact .inr (.inl ⟨_, _, by assumption, h⟩)
  · cases h; exact .inr (.inr ⟨_, _, by assumption, rfl⟩)

theorem decodeCmd_level (op : BitVec 2) : (decodeCmd op).level = .cmd := by
  unfold decodeCmd; split <;> rfl

/-- A command keeps the invariant and the parameters: a decode's error lies in its bytes, and an encode's bytes fit in
WIRE. -/
theorem exec_cmd_keepsInv {s t : State} {i : Instr} (hi : i.level = .cmd) (h : exec i s = .next t) :
    (Inv s → Inv t) ∧ t.par = s.par := by
  cases i <;> cases hi
  case decFrame =>
    exact ⟨fun hs => (hs.setCmd 0).decodeFrameOp (fun _ _ _ => decFrame_pos) h, (decodeFrameOp_keeps h).par⟩
  case decAsdu =>
    exact ⟨fun hs => (hs.setCmd 2).decodeAsduOp (fun w e he => Nat.zero_add w.length ▸ decAsdu_pos he) h,
      (decodeAsduOp_keeps h).par⟩
  case encFrame =>
    rw [exec_encFrame] at h
    cases h
    refine ⟨fun hs => (hs.setCmd 1).encodeOp fun b c hb => (encFrame_length hb).trans ?_, (encodeOp_frame _ _).1⟩
    exact le_trans (by decide) (Params.valid_bufsz hs.par).1
  case encAsdu =>
    rw [exec_encAsdu] at h
    cases h
    exact ⟨fun hs => (hs.setCmd 3).encodeOp fun b c hb =>
      (encAsdu_length hs.par (bareResult_ok hb)).trans (Params.valid_bufsz hs.par).1, (encodeOp_frame _ _).1⟩

/-- Settles O54: a step is idle, a command or a host access, and each keeps the invariant and the parameters. -/
theorem stepKeepsInv : Obligations.StepKeepsInv := by
  intro s t h
  rcases step_next h with rfl | ⟨op, rest, _, run⟩ | ⟨a, rest, _, rfl⟩
  case inl => exact ⟨id, rfl⟩
  case inr.inl =>
    obtain ⟨inv, par⟩ := exec_cmd_keepsInv (decodeCmd_level op) run
    exact ⟨fun hs => inv (hs.setPending rest), par⟩
  case inr.inr => exact ⟨fun hs => (hs.setPending rest).applyAccess a, applyAccess_par a _⟩

/-- Settles O53: the spec's own parameters are among those R6 allows, and WIRE is empty. -/
theorem invAtReset : Obligations.InvAtReset :=
  ⟨specParams_valid, Memory.wf_nil, Nat.zero_le _, by decide, idle_legal _⟩

end Sys2Proof.Machine
end

section
/-! PROOFS. Reset and the host's own accesses: the values after reset and its free draw (spec/10_state.md R44, R330),
and what each write and each read of the host does (spec/46_host_operations.md R275, R276). -/

namespace Sys2Proof.Machine

/-! ## Reset (R44, R277) -/

theorem resetWith_byte (u : State) (w : List Byte) (l : List Slot) {k : Nat} (hk : k < u.par.bufsz)
    (hw : k < w.length) : (resetWith u w l).byte k = byteAt w k := by
  have drawn := Memory.read_writeBytes w (m := []) (z := u.par.bufsz) 0 k Memory.wf_nil
  exact drawn.trans (if_pos ⟨Nat.zero_le k, by omega, hk⟩)

theorem resetWith_slots_toList (u : State) (w : List Byte) (v : Vector Slot Config.nslot) :
    (resetWith u w v.toList).slots = v := by
  ext1 i hi
  simp [resetWith]

theorem byteAt_map_range (draw : Nat → Byte) {n k : Nat} (h : k < n) : byteAt ((List.range n).map draw) k = draw k := by
  simp [byteAt, h]

/-- Settles O57: RESET gives every part but WIRE and the object store one value, and writes its draw to these two. -/
theorem resetValues : Obligations.ResetValues := by
  refine ⟨?values, fun u draw v => ⟨(List.range u.par.bufsz).map draw, v.toList, fun k hk => ?wire, ?slots, rfl⟩⟩
  case values =>
    rintro s (rfl | ⟨u, w, l, rfl⟩) <;> exact ⟨rfl, rfl, rfl, rfl, rfl⟩
  case wire => exact (resetWith_byte u _ _ hk (by simpa using hk)).trans (byteAt_map_range draw hk)
  case slots => exact resetWith_slots_toList u _ v

/-! ## Writes of WIRE, WLEN and CFG -/

theorem applyAccess_wire {k b : Nat} {s : State} (hk : k < s.par.bufsz) (hb : b < 256) :
    applyAccess (.wire k b) s = s.setWire (Memory.write s.par.bufsz s.wire k (BitVec.ofNat 8 b)) :=
  if_pos ⟨hk, hb⟩

theorem applyAccess_wlen {v : Nat} {s : State} (hv : v ≤ s.par.bufsz) : applyAccess (.wlen v) s = s.setWlen v :=
  if_pos hv

theorem write_byte {s : State} (hwf : Memory.wf s.par.bufsz s.wire = true) {k : Nat} (hk : k < s.par.bufsz) (j : Nat)
    (b : Byte) : (s.setWire (Memory.write s.par.bufsz s.wire k b)).byte j = if j = k then b else s.byte j := by
  simp only [State.byte, State.setWire_wire, Memory.read_write hwf, hk, and_true]

/-- Settles O59: each write has its guard, and replaces the one byte or field it names. -/
theorem hostWritesWireSide : Obligations.HostWritesWireSide := by
  intro s hp hwf
  refine ⟨fun k b hk hb => ?wire, fun k b h => ?wireRefused, fun v hv => ?wlen, fun v hv => ?wlenRefused,
    fun v hv => ?csmode, rfl, fun v => rfl⟩
  case wire =>
    rw [applyAccess_wire hk hb]
    refine ⟨?_, fun j hj => ?_, rfl⟩
    · rw [write_byte hwf hk, if_pos rfl, BitVec.toNat_ofNat, Nat.mod_eq_of_lt hb]
    · rw [write_byte hwf hk, if_neg hj]
  case wireRefused => exact if_neg (by omega)
  case wlen =>
    rw [applyAccess_wlen hv]
    have fits : v < 2 ^ 12 := by have := (Params.valid_bufsz hp).2; omega
    exact ⟨by rw [State.setWlen_wlen, BitVec.toNat_ofNat, Nat.mod_eq_of_lt fits], rfl⟩
  case wlenRefused => exact if_neg (by omega)
  case csmode => exact if_neg hv

/-! ## The scalar registers by name -/

theorem Regs.get_set_self (r : Regs) (x : RecReg) {v : Nat} (hv : v < 2 ^ regWidth x) : (r.set x v).get x = v := by
  have fits {n : Nat} (h : v < 2 ^ n) : (BitVec.ofNat n v).toNat = v := by
    rw [BitVec.toNat_ofNat, Nat.mod_eq_of_lt h]
  cases x <;> exact fits hv

theorem Regs.get_set_of_ne (r : Regs) {x y : RecReg} (v : Nat) (h : y ≠ x) : (r.set x v).get y = r.get y := by
  cases x <;> cases y <;> (try exact absurd rfl h) <;> rfl

theorem applyAccess_reg {r : RecReg} {v : Nat} {s : State} (hv : v < 2 ^ regWidth r) :
    applyAccess (.reg r v) s = s.setRegs (s.regs.set r v) :=
  if_pos hv

/-! ## One slot -/

section
variable (s : State) {i : Nat} (f : Slot → Slot)

theorem updateSlot_of_lt (h : i < Config.nslot) : s.updateSlot i f = s.setSlots (s.slots.set i (f s.slots[i])) :=
  dif_pos h

theorem updateSlot_slots_self (h : i < Config.nslot) : (s.updateSlot i f).slots[i] = f s.slots[i] := by
  simp only [updateSlot_of_lt s f h, State.setSlots_slots, Vector.getElem_set_self]

theorem updateSlot_slots_of_ne {j : Nat} (hj : j < Config.nslot) (h : j ≠ i) :
    (s.updateSlot i f).slots[j] = s.slots[j] := by
  rcases updateSlot_cases s i f with ⟨hi, e⟩ | ⟨_, e⟩
  · simp only [e, State.setSlots_slots, Vector.getElem_set_ne hi hj h.symm]
  · simp only [e]

/-- A slot update changes nothing but the object store. -/
theorem updateSlot_restore : { s.updateSlot i f with slots := s.slots } = s := by
  rcases updateSlot_cases s i f with ⟨_, e⟩ | ⟨_, e⟩
  · rw [e]; rfl
  · rw [e]

end

theorem applyAccess_addr {i v : Nat} {s : State} (h : i < Config.nslot) (hv : v < 65536) :
    applyAccess (.addr i v) s = s.updateSlot i fun sl => { sl with addr := BitVec.ofNat 16 v } :=
  if_pos ⟨h, hv⟩

theorem applyAccess_eg {i j b : Nat} {s : State} (h : i < Config.nslot) (hj : j < Config.gmax) (hb : b < 256) :
    applyAccess (.eg i j b) s = s.updateSlot i fun sl => setEgByte sl j (BitVec.ofNat 8 b) :=
  if_pos ⟨h, hj, hb⟩

@[simp] theorem setEgByte_addr (sl : Slot) (j : Nat) (b : Byte) : (setEgByte sl j b).addr = sl.addr := rfl

theorem setEgByte_eg_self (sl : Slot) {j : Nat} (b : Byte) (hj : j < Config.gmax) : (setEgByte sl j b).eg[j] = b := by
  simp only [setEgByte, Vector.getElem_setIfInBounds_self]

theorem setEgByte_eg_of_ne (sl : Slot) {j m : Nat} (b : Byte) (hm : m < Config.gmax) (h : m ≠ j) :
    (setEgByte sl j b).eg[m] = sl.eg[m] := by
  simp only [setEgByte, Vector.getElem_setIfInBounds_ne hm h.symm]

/-! ## Reads -/

/-- Fields put side by side are their weighted sum (R7). -/
theorem append_toNat {m n : Nat} (x : BitVec m) (y : BitVec n) : (x ++ y).toNat = 2 ^ n * x.toNat + y.toNat := by
  rw [BitVec.toNat_append, ← Nat.shiftLeft_add_eq_or_of_lt y.isLt, Nat.shiftLeft_eq, Nat.mul_comm]

/-- The CFG word (R23). -/
theorem Cfg.word_toNat (c : Cfg) : c.word.toNat = c.csmode.toNat + 4 * c.csgen.toNat :=
  (append_toNat c.csgen c.csmode).trans (Nat.add_comm _ _)

/-- The STATUS word (R25). -/
theorem Status.word_toNat (x : Status) :
    x.word.toNat = x.st.toNat + 4 * x.err.toNat + 64 * x.cserr.toNat + 128 * x.errpos.toNat := by
  have word : x.word.toNat = 2 ^ 2 * (2 ^ 4 * (2 ^ 1 * x.errpos.toNat + x.cserr.toNat) + x.err.toNat) + x.st.toNat := by
    rw [← append_toNat, ← append_toNat, ← append_toNat]; rfl
  omega

theorem hostRead_addr (s : State) {i : Nat} (h : i < Config.nslot) :
    hostRead (.addr i) s = some s.slots[i].addr.toNat := by
  simp only [hostRead, Vector.getElem?_eq_getElem h, Option.map_some]

theorem hostRead_eg (s : State) {i j : Nat} (h : i < Config.nslot) (hj : j < Config.gmax) :
    hostRead (.eg i j) s = some s.slots[i].eg[j].toNat := by
  simp only [hostRead, Vector.getElem?_eq_getElem h, Option.bind_some, Vector.getElem?_eq_getElem hj, Option.map_some]

theorem hostRead_addr_of_ge (s : State) {i : Nat} (h : Config.nslot ≤ i) : hostRead (.addr i) s = none := by
  simp only [hostRead, Vector.getElem?_eq_none h, Option.map_none]

theorem hostRead_eg_of_ge (s : State) {i j : Nat} (h : Config.nslot ≤ i ∨ Config.gmax ≤ j) :
    hostRead (.eg i j) s = none := by
  rcases h with hi | hj
  · simp only [hostRead, Vector.getElem?_eq_none hi, Option.bind_none]
  · simp only [hostRead, Vector.getElem?_eq_none hj, Option.map_none, Option.bind_fun_none]

/-- Settles O60: each write has its guard, and replaces the one register, address or byte it names; each read returns
what it names. -/
theorem hostWritesRecordSide : Obligations.HostWritesRecordSide := by
  intro s
  refine ⟨fun r v hv => ?reg, fun r v hv => ?regRefused, fun i v h hv => ?addr, fun i j b h hj hb => ?eg,
    fun i v h => ?addrRefused, fun i j b h => ?egRefused, fun _ => rfl, fun _ => rfl, fun _ => rfl, rfl,
    congrArg some s.cfg.word_toNat, rfl, congrArg some s.status.word_toNat, rfl,
    fun i h => ⟨hostRead_addr s h, fun j => hostRead_eg s h⟩, fun i => hostRead_addr_of_ge s,
    fun i j => hostRead_eg_of_ge s⟩
  case reg =>
    rw [applyAccess_reg hv]
    exact ⟨Regs.get_set_self _ r hv, fun r' => Regs.get_set_of_ne _ v, rfl⟩
  case regRefused => exact if_neg (Nat.not_lt.mpr hv)
  case addr =>
    rw [applyAccess_addr h hv, updateSlot_slots_self s _ h]
    refine ⟨?_, rfl, fun j hj => updateSlot_slots_of_ne s _ hj, updateSlot_restore s _⟩
    rw [BitVec.toNat_ofNat, Nat.mod_eq_of_lt hv]
  case eg =>
    rw [applyAccess_eg h hj hb, updateSlot_slots_self s _ h]
    refine ⟨?_, fun m hm => setEgByte_eg_of_ne _ _ hm, rfl, fun m hm => updateSlot_slots_of_ne s _ hm,
      updateSlot_restore s _⟩
    rw [setEgByte_eg_self _ _ hj, BitVec.toNat_ofNat, Nat.mod_eq_of_lt hb]
  case addrRefused => exact if_neg (by omega)
  case egRefused => exact if_neg (by omega)

end Sys2Proof.Machine
end

section
/-! PROOFS. The abstract record decides what an encode produces (spec/10_state.md R34, R35): each encode is a function
of the view alone. -/

namespace Sys2Proof.Machine

/-! ## The packed header bytes (R115, R181) -/

@[simp] theorem ctlbyte_ctl (c : Byte) : ctlbyte (ctl c) = c := by
  revert c; decide

@[simp] theorem mkCotb_fields (c : Byte) : mkCotb (cotTest c) (cotNeg c) (cotCause c) = c := by
  revert c; decide

/-! ## ENC_ASDU as a function of `view_asdu` -/

/-- The bytes of an object list: each object's address and group, or one address and the groups (R88, R89). -/
def Objs.bytes : Objs → List Byte
  | .discrete l => l.flatMap fun o => put16 o.1 ++ o.2
  | .sequence base gs => put16 base ++ gs.flatten

/-- The object list an encode sends is that of the view (R34, R190). -/
theorem encObjs_eq_viewObjs_bytes (g : Nat) (sq : Bit) (num : BitVec 7) (v : Vector Slot Config.nslot) :
    encObjs g sq num v = (viewObjs g sq num v).bytes := by
  unfold encObjs viewObjs
  split
  · simp only [Objs.bytes, List.flatMap_map]; rfl
  · simp only [Objs.bytes, ← List.flatMap_def]; rfl

/-- The encode of an abstract ASDU (R190): what is left of `enc_asdu` once the view is defined. -/
def Asdu.encode (p : Params) (a : Asdu) : Except CodecErr (List Byte) :=
  if a.sq = 1 ∧ p.seqLegal a.ti = false then .error ⟨.illegalSequenceMode, 0⟩
  else .ok ([a.ti, mkVsq a.sq a.num, mkCotb a.test a.neg a.cot, a.ca] ++ a.objs.bytes)

theorem viewAsdu_some {p : Params} {r : Regs} {v : Vector Slot Config.nslot} {a : Asdu}
    (h : viewAsdu p r v = some a) :
    ∃ row, p.lookup r.ti = some row ∧ vsqNum r.vsq ≠ 0 ∧
      a = { ti := r.ti, sq := vsqSq r.vsq, num := vsqNum r.vsq, test := cotTest r.cotb, neg := cotNeg r.cotb,
            cot := cotCause r.cotb, ca := r.ca,
            objs := viewObjs (p.gsize row) (vsqSq r.vsq) (vsqNum r.vsq) v } := by
  unfold viewAsdu at h
  split at h
  · cases h
  · split at h <;> cases h
    exact ⟨_, by assumption, by assumption, rfl⟩

theorem encAsdu_eq_encode_view {p : Params} {r : Regs} {v : Vector Slot Config.nslot} {a : Asdu}
    (h : viewAsdu p r v = some a) : encAsdu p r v = a.encode p := by
  obtain ⟨row, found, num, rfl⟩ := viewAsdu_some h
  simp only [encAsdu, Asdu.encode, Params.seqLegal, found, if_neg num, mkVsq_vsqSq_vsqNum, mkCotb_fields,
    encObjs_eq_viewObjs_bytes]

/-! ## ENC_FRAME as a function of `view` -/

/-- The registers a variable frame's link part is encoded from. -/
def linkRegs (c : Control) (addr cs : Byte) : Regs := { Regs.zero with ctrl := ctlbyte c, laddr := addr, cs := cs }

/-- The encode of an abstract record (R121). -/
def Record.encode (p : Params) (cfg : Cfg) : Record → Except CodecErr (List Byte × Bit)
  | .frame .noFrame | .asdu _ => .error ⟨.unknownFrameStart, 0⟩
  | .frame (.singleChar neg) => .ok ([singleByte neg], 0)
  | .frame (.fixed c addr cs) =>
    match csgen cfg.csmode cfg.csgen cs [ctlbyte c, addr] with
    | .error e => .error e
    | .ok (cs, cserr) => .ok ([0x10, ctlbyte c, addr, cs, 0x16], cserr)
  | .frame (.variableFrame c addr cs none) => encVariable cfg (linkRegs c addr cs) []
  | .frame (.variableFrame c addr cs (some a)) =>
    match a.encode p with
    | .error e => .error e
    | .ok b => encVariable cfg (linkRegs c addr cs) b

theorem encVariable_linkRegs (cfg : Cfg) (r : Regs) (b : List Byte) :
    encVariable cfg (linkRegs (ctl r.ctrl) r.laddr r.cs) b = encVariable cfg r b := by
  simp only [encVariable, linkRegs, ctlbyte_ctl]

/-- All `view` can be where it is defined, by KIND (R34). -/
theorem view_some {p : Params} {r : Regs} {v : Vector Slot Config.nslot} {x : Record} (h : view p r v = some x) :
    (r.kind = 0 ∧ x = .frame .noFrame) ∨ (r.kind = 1 ∧ x = .frame (.singleChar r.sc)) ∨
    (r.kind = 2 ∧ x = .frame (.fixed (ctl r.ctrl) r.laddr r.cs)) ∨
    (r.kind = 3 ∧ r.hasasdu = 1 ∧
      ∃ a, viewAsdu p r v = some a ∧ x = .frame (.variableFrame (ctl r.ctrl) r.laddr r.cs (some a))) ∨
    (r.kind = 3 ∧ r.hasasdu ≠ 1 ∧ x = .frame (.variableFrame (ctl r.ctrl) r.laddr r.cs none)) ∨
    (r.kind = 4 ∧ ∃ a, x = .asdu a) := by
  unfold view at h
  have kind {n : Nat} {k : BitVec 3} (hn : r.kind.toNat = n) (hk : k.toNat = n) : r.kind = k :=
    BitVec.eq_of_toNat_eq (hn.trans hk.symm)
  split at h
  case h_1 hk => cases h; exact .inl ⟨kind hk rfl, rfl⟩
  case h_2 hk => cases h; exact .inr (.inl ⟨kind hk rfl, rfl⟩)
  case h_3 hk => cases h; exact .inr (.inr (.inl ⟨kind hk rfl, rfl⟩))
  case h_4 hk =>
    split at h
    · obtain ⟨a, ha, rfl⟩ := Option.map_eq_some_iff.mp h
      exact .inr (.inr (.inr (.inl ⟨kind hk rfl, by assumption, a, ha, rfl⟩)))
    · cases h; exact .inr (.inr (.inr (.inr (.inl ⟨kind hk rfl, by assumption, rfl⟩))))
  case h_5 hk =>
    obtain ⟨a, _, rfl⟩ := Option.map_eq_some_iff.mp h
    exact .inr (.inr (.inr (.inr (.inr ⟨kind hk rfl, a, rfl⟩))))
  case h_6 => cases h

theorem encFrame_noFrame {p : Params} {cfg : Cfg} {r : Regs} {v : Vector Slot Config.nslot}
    (hk : r.kind = 0 ∨ r.kind = 4) : encFrame p cfg r v = .error ⟨.unknownFrameStart, 0⟩ := by
  unfold encFrame
  rcases hk with hk | hk <;> (rw [hk]; rfl)

theorem encFrame_eq_encode_view {p : Params} {cfg : Cfg} {r : Regs} {v : Vector Slot Config.nslot} {x : Record}
    (h : view p r v = some x) : encFrame p cfg r v = x.encode p cfg := by
  rcases view_some h with ⟨hk, rfl⟩ | ⟨hk, rfl⟩ | ⟨hk, rfl⟩ | ⟨hk, has, a, ha, rfl⟩ | ⟨hk, has, rfl⟩ | ⟨hk, a, rfl⟩
  · exact encFrame_noFrame (.inl hk)
  · exact encFrame_single hk
  · rcases made : csgen cfg.csmode cfg.csgen r.cs [r.ctrl, r.laddr] with e | ⟨cs, c⟩ <;>
      simp only [encFrame_fixed hk, Record.encode, ctlbyte_ctl, made]
  · cases sent : a.encode p <;>
      simp only [encFrame_asdu hk has, encAsdu_eq_encode_view ha, Record.encode, sent, encVariable_linkRegs]
  · rw [encFrame_variable hk has, Record.encode, encVariable_linkRegs]
  · exact encFrame_noFrame (.inr hk)

/-- Settles O52: both encodes factor through the view. -/
theorem viewDeterminesEncoding : Obligations.ViewDeterminesEncoding :=
  ⟨fun _ _ _ _ _ _ _ h h' => (encFrame_eq_encode_view h).trans (encFrame_eq_encode_view h').symm,
    fun _ _ _ _ _ _ h h' => (encAsdu_eq_encode_view h).trans (encAsdu_eq_encode_view h').symm⟩

end Sys2Proof.Machine
end

section
/-! PROOFS. The extractor view FLD (spec/10_state.md R31, R167): the places of a group's fields, an element group read
as one number bit by bit, and what a read and a write through the view do. -/

namespace Sys2Proof

/-! ## Places of a group's fields -/

/-- Bit n belongs to the place. -/
def BitField.Has (b : BitField) (n : Nat) : Prop := b.lo ≤ n ∧ n < b.lo + b.width

theorem Params.kindOffset_append {p : Params} {k : Kind} {before : List Kind} (h : k ∉ before) (after : List Kind) :
    p.kindOffset k (before ++ k :: after) = some (p.groupSize before) := by
  induction before with
  | nil => exact if_pos rfl
  | cons x xs ih =>
    obtain ⟨head, tail⟩ := not_or.mp (List.mem_cons.not.mp h)
    simp only [List.cons_append, Params.kindOffset, if_neg (Ne.symm head), ih tail, Option.map_some, Params.groupSize]

theorem Params.kindOffset_of_not_mem {p : Params} {k : Kind} {g : List Kind} (h : k ∉ g) : p.kindOffset k g = none := by
  induction g with
  | nil => rfl
  | cons x xs ih =>
    obtain ⟨head, tail⟩ := not_or.mp (List.mem_cons.not.mp h)
    simp only [Params.kindOffset, if_neg (Ne.symm head), ih tail, Option.map_none]

/-- The kinds of a group, head first: the offset of the head is 0, the others' are past it. -/
theorem Params.kindOffset_cons_some {p : Params} {k x : Kind} {xs : List Kind} {o : Nat}
    (h : p.kindOffset k (x :: xs) = some o) :
    (x = k ∧ o = 0) ∨ ∃ o', x ≠ k ∧ p.kindOffset k xs = some o' ∧ o = p.kindSize x + o' := by
  unfold Params.kindOffset at h
  split at h
  · cases h; exact .inl ⟨by assumption, rfl⟩
  · obtain ⟨o', found, rfl⟩ := Option.map_eq_some_iff.mp h
    exact .inr ⟨o', by assumption, found, rfl⟩

/-- A kind lies in its group (R167). -/
theorem Params.kindOffset_add_le {p : Params} {k : Kind} {g : List Kind} {o : Nat} (h : p.kindOffset k g = some o) :
    o + p.kindSize k ≤ p.groupSize g := by
  induction g generalizing o with
  | nil => cases h
  | cons x xs ih =>
    rw [Params.groupSize]
    rcases Params.kindOffset_cons_some h with ⟨rfl, rfl⟩ | ⟨o', _, found, rfl⟩
    · omega
    · have := ih found; omega

/-- Two kinds of a group do not overlap (R167). -/
theorem Params.kindOffset_disjoint {p : Params} {k k' : Kind} {g : List Kind} {o o' : Nat}
    (h : p.kindOffset k g = some o) (h' : p.kindOffset k' g = some o') (hne : k' ≠ k) :
    o + p.kindSize k ≤ o' ∨ o' + p.kindSize k' ≤ o := by
  induction g generalizing o o' with
  | nil => cases h
  | cons x xs ih =>
    rcases Params.kindOffset_cons_some h with ⟨rfl, rfl⟩ | ⟨q, _, found, rfl⟩ <;>
      rcases Params.kindOffset_cons_some h' with ⟨rfl, rfl⟩ | ⟨q', _, found', rfl⟩
    · exact absurd rfl hne
    · omega
    · omega
    · have := ih found found'; omega

theorem Params.fieldOf_le {p : Params} (hp : p.valid = true) {k : Kind} {f : Field} {b : BitField}
    (h : p.fieldOf k f = some b) : b.lo + b.width ≤ 8 * p.kindSize k :=
  Params.valid_field hp (assoc_mem h)

/-- Two fields of a kind share no bit (R140, R150). -/
theorem Params.fieldOf_disjoint {p : Params} (hp : p.valid = true) {k : Kind} {f f' : Field} {b b' : BitField}
    (h : p.fieldOf k f = some b) (h' : p.fieldOf k f' = some b') (hne : f' ≠ f) {n : Nat} (hn : b.Has n) :
    ¬ b'.Has n := by
  intro hn'
  have bound : n < 8 * p.kindSize k := Nat.lt_of_lt_of_le hn.2 (Params.fieldOf_le hp h)
  obtain ⟨e, only⟩ := List.length_eq_one_iff.mp (Params.valid_bit hp k bound)
  have owner {x : Field × BitField} (hx : x ∈ p.layout k) (has : x.2.Has n) : x = e := by
    have mem : x ∈ (p.layout k).filter fun e => decide (e.2.lo ≤ n ∧ n < e.2.lo + e.2.width) :=
      List.mem_filter.mpr ⟨hx, decide_eq_true has⟩
    rw [only] at mem
    exact List.mem_singleton.mp mem
  have same : (f', b') = (f, b) := (owner (assoc_mem h') hn').trans (owner (assoc_mem h) hn).symm
  exact hne (congrArg Prod.fst same)

/-- The place of a field in a group is its place in its element, moved by the element's offset (R167). -/
theorem Params.fldPlace_eq_some_iff {p : Params} {ti : Byte} {k : Kind} {f : Field} {q : BitField} :
    p.fldPlace ti k f = some q ↔ ∃ row off b, p.lookup ti = some row ∧ p.kindOffset k row.group = some off ∧
      p.fieldOf k f = some b ∧ q = ⟨8 * off + b.lo, b.width⟩ := by
  unfold Params.fldPlace
  cases p.lookup ti with
  | none => simp
  | some row =>
    dsimp only
    cases offset : p.kindOffset k row.group <;> cases p.fieldOf k f <;> simp [offset, eq_comm]

theorem Params.fldPlace_eq_none {p : Params} {ti : Byte} {k : Kind} {f : Field}
    (h : p.lookup ti = none ∨ (∃ row, p.lookup ti = some row ∧ k ∉ row.group) ∨ p.fieldOf k f = none) :
    p.fldPlace ti k f = none := by
  rw [Option.eq_none_iff_forall_ne_some]
  intro q place
  obtain ⟨row, off, b, found, offset, field, _⟩ := Params.fldPlace_eq_some_iff.mp place
  rcases h with unknown | ⟨row', found', notIn⟩ | noField
  · rw [unknown] at found; cases found
  · rw [found'] at found
    cases found
    rw [Params.kindOffset_of_not_mem notIn] at offset
    cases offset
  · rw [noField] at field; cases field

/-- A field lies in the 12 bytes of a group (R32, R167). -/
theorem Params.fldPlace_le {p : Params} (hp : p.valid = true) {ti : Byte} {k : Kind} {f : Field} {q : BitField}
    (h : p.fldPlace ti k f = some q) : q.lo + q.width ≤ 8 * Config.gmax := by
  obtain ⟨row, off, b, found, offset, field, rfl⟩ := Params.fldPlace_eq_some_iff.mp h
  have inElement := Params.fieldOf_le hp field
  have inGroup := Params.kindOffset_add_le offset
  have size : p.groupSize row.group ≤ Config.gmax := (Params.valid_gsize hp found).2
  simp only
  omega

/-- Two fields of a group share no bit (R150, R167). -/
theorem Params.fldPlace_disjoint {p : Params} (hp : p.valid = true) {ti : Byte} {k k' : Kind} {f f' : Field}
    {q q' : BitField} (h : p.fldPlace ti k f = some q) (h' : p.fldPlace ti k' f' = some q') (hne : (k', f') ≠ (k, f))
    {n : Nat} (hn' : q'.Has n) : ¬ q.Has n := by
  obtain ⟨row, off, b, found, offset, field, rfl⟩ := Params.fldPlace_eq_some_iff.mp h
  obtain ⟨row', off', b', found', offset', field', rfl⟩ := Params.fldPlace_eq_some_iff.mp h'
  rw [found'] at found
  cases found
  rintro ⟨lo, hi⟩
  obtain ⟨lo', hi'⟩ := hn'
  simp only at lo hi lo' hi'
  by_cases hk : k' = k
  · subst hk
    rw [offset'] at offset
    cases offset
    have hf : f' ≠ f := fun e => hne (e ▸ rfl)
    exact Params.fieldOf_disjoint hp field field' hf (n := n - 8 * off) ⟨by omega, by omega⟩ ⟨by omega, by omega⟩
  · have apart := Params.kindOffset_disjoint offset offset' hk
    have inElement := Params.fieldOf_le hp field
    have inElement' := Params.fieldOf_le hp field'
    omega

end Sys2Proof

namespace Sys2Proof.Machine

/-! ## Bits of a number (R7, R31) -/

theorem getBits_testBit (v lo w n : Nat) : (getBits v lo w).testBit n = (decide (n < w) && v.testBit (n + lo)) := by
  rw [getBits, Nat.testBit_mod_two_pow, Nat.testBit_div_two_pow]

/-- Two numbers with the same bits in two places of one width have the same fields there. -/
theorem getBits_congr {v v' lo lo' w : Nat} (h : ∀ n, n < w → v.testBit (n + lo) = v'.testBit (n + lo')) :
    getBits v lo w = getBits v' lo' w := by
  refine Nat.eq_of_testBit_eq fun n => ?_
  rw [getBits_testBit, getBits_testBit]
  by_cases hn : n < w
  · rw [h n hn]
  · simp only [hn, decide_false, Bool.false_and]

/-- Writing a place replaces the bits of the place by the value's and keeps every other bit. -/
theorem setBits_testBit {v lo w x : Nat} (hx : x < 2 ^ w) (n : Nat) :
    (setBits v lo w x).testBit n = if lo ≤ n ∧ n < lo + w then x.testBit (n - lo) else v.testBit n := by
  have split : setBits v lo w x = 2 ^ lo * (2 ^ w * (v / 2 ^ (lo + w)) + x) + v % 2 ^ lo := by
    rw [setBits, Nat.pow_add]; ring
  rw [split, Nat.testBit_two_pow_mul_add _ (Nat.mod_lt v (Nat.two_pow_pos lo)), Nat.testBit_two_pow_mul_add _ hx,
    Nat.testBit_mod_two_pow, Nat.testBit_div_two_pow]
  by_cases below : n < lo
  · rw [if_pos below, if_neg (by omega), decide_eq_true below, Bool.true_and]
  · rw [if_neg below]
    by_cases inside : n - lo < w
    · rw [if_pos inside, if_pos (by omega)]
    · rw [if_neg inside, if_neg (by omega), show n - lo - w + (lo + w) = n by omega]

theorem getBits_setBits_self {v lo w x : Nat} (hx : x < 2 ^ w) : getBits (setBits v lo w x) lo w = x := by
  refine Nat.eq_of_testBit_eq fun n => ?_
  rw [getBits_testBit, setBits_testBit hx]
  by_cases hn : n < w
  · rw [if_pos (by omega), Nat.add_sub_cancel, decide_eq_true hn, Bool.true_and]
  · have high : x.testBit n = false :=
      Nat.testBit_lt_two_pow (hx.trans_le (Nat.pow_le_pow_right (by decide) (Nat.not_lt.mp hn)))
    rw [decide_eq_false hn, Bool.false_and, high]

/-- A number of m bits stays one when a place in them is written. -/
theorem setBits_lt {v lo w x m : Nat} (hv : v < 2 ^ m) (hx : x < 2 ^ w) (hm : lo + w ≤ m) :
    setBits v lo w x < 2 ^ m := by
  refine Nat.lt_pow_two_of_testBit _ fun n hn => ?_
  rw [setBits_testBit hx, if_neg (by omega)]
  exact Nat.testBit_lt_two_pow (hv.trans_le (Nat.pow_le_pow_right (by decide) hn))

/-! ## Byte strings as little-endian numbers (R9, R61) -/

/-- Bit q of byte m is bit 8 * m + q. -/
theorem leNat_testBit (bs : List Byte) (m : Nat) {q : Nat} (hq : q < 8) :
    (leNat bs).testBit (8 * m + q) = (byteAt bs m).getLsbD q := by
  induction bs generalizing m with
  | nil => simp [leNat, byteAt]
  | cons b bs ih =>
    have split : leNat (b :: bs) = 2 ^ 8 * leNat bs + b.toNat := Nat.add_comm _ _
    rw [split, Nat.testBit_two_pow_mul_add _ b.isLt]
    cases m with
    | zero => rw [if_pos (by omega), Nat.mul_zero, Nat.zero_add]; rfl
    | succ m =>
      rw [if_neg (by omega), show 8 * (m + 1) + q - 8 = 8 * m + q by omega, ih]
      rfl

theorem leNat_lt (bs : List Byte) : leNat bs < 2 ^ (8 * bs.length) := by
  induction bs with
  | nil => decide
  | cons b bs ih =>
    have := b.isLt
    rw [leNat, List.length_cons, Nat.mul_succ, Nat.pow_add]
    omega

@[simp] theorem leBytes_length (n v : Nat) : (leBytes n v).length = n := by
  induction n generalizing v with
  | zero => rfl
  | succ n ih => rw [leBytes, List.length_cons, ih]

theorem leNat_leBytes {n v : Nat} (h : v < 2 ^ (8 * n)) : leNat (leBytes n v) = v := by
  induction n generalizing v with
  | zero => rw [Nat.lt_one_iff.mp h]; rfl
  | succ n ih =>
    have quotient : v / 256 < 2 ^ (8 * n) := by
      rw [Nat.mul_succ, Nat.pow_add] at h
      omega
    rw [leBytes, leNat, ih quotient, BitVec.toNat_ofNat]
    omega

/-- A field of a slice is the field of the whole string, moved by where the slice starts. -/
theorem getBits_slice (l : List Byte) {a n lo w : Nat} (h : lo + w ≤ 8 * n) :
    getBits (leNat (slice l a (a + n))) lo w = getBits (leNat l) (8 * a + lo) w := by
  refine getBits_congr fun i hi => ?_
  obtain ⟨m, q, hq, at_⟩ : ∃ m q, q < 8 ∧ i + lo = 8 * m + q := ⟨(i + lo) / 8, (i + lo) % 8, by omega, by omega⟩
  rw [at_, show i + (8 * a + lo) = 8 * (a + m) + q by omega, leNat_testBit _ _ hq, leNat_testBit _ _ hq,
    byteAt_slice l (by omega)]

/-! ## Fields of an element group -/

theorem padGroup_toList {bs : List Byte} (h : bs.length = Config.gmax) : (padGroup bs).toList = bs := by
  have whole := take_padGroup bs h.le
  rwa [List.take_of_length_le (by rw [Vector.length_toList, h])] at whole

section
variable (eg : Vector Byte Config.gmax)

theorem eg_getLsbD {m : Nat} (hm : m < Config.gmax) {q : Nat} (hq : q < 8) :
    eg[m].getLsbD q = (leNat eg.toList).testBit (8 * m + q) := by
  rw [leNat_testBit _ _ hq, byteAt, List.getD_eq_getElem _ _ (by rwa [Vector.length_toList]), Vector.getElem_toList]

variable {p : BitField} (hp : p.lo + p.width ≤ 8 * Config.gmax) {v : Nat} (hv : v < 2 ^ p.width)
include hp hv

/-- A written group, read as one number, is the old number with the place written (R31). -/
theorem leNat_egSetField : leNat (egSetField eg p v).toList = setBits (leNat eg.toList) p.lo p.width v := by
  have bound := leNat_lt eg.toList
  rw [Vector.length_toList] at bound
  rw [egSetField, padGroup_toList (leBytes_length _ _), leNat_leBytes (setBits_lt bound hv hp)]

theorem egField_egSetField_self : egField (egSetField eg p v) p = v := by
  rw [egField, leNat_egSetField eg hp hv, getBits_setBits_self hv]

theorem egField_egSetField_of_disjoint {q : BitField} (h : ∀ n, q.Has n → ¬ p.Has n) :
    egField (egSetField eg p v) q = egField eg q := by
  rw [egField, leNat_egSetField eg hp hv]
  refine getBits_congr fun n hn => ?_
  rw [setBits_testBit hv]
  exact if_neg (h (n + q.lo) ⟨by omega, by omega⟩)

theorem egSetField_getLsbD {m : Nat} (hm : m < Config.gmax) {q : Nat} (hq : q < 8) (h : ¬ p.Has (8 * m + q)) :
    (egSetField eg p v)[m].getLsbD q = eg[m].getLsbD q := by
  rw [eg_getLsbD _ hm hq, eg_getLsbD _ hm hq, leNat_egSetField eg hp hv, setBits_testBit hv]
  exact if_neg h

end

/-! ## Reads and writes through the view -/

theorem fldRead_of_lt {s : State} {i : Nat} (h : i < Config.nslot) (k : Kind) (f : Field) :
    fldRead s i k f = (s.par.fldPlace s.regs.ti k f).map (egField s.slots[i].eg) := by
  rw [fldRead, Vector.getElem?_eq_getElem h]
  cases s.par.fldPlace s.regs.ti k f <;> rfl

theorem fldRead_of_ge {s : State} {i : Nat} (h : Config.nslot ≤ i) (k : Kind) (f : Field) : fldRead s i k f = none := by
  rw [fldRead, Vector.getElem?_eq_none h]

/-- Settles O44: the kind's bytes are the slice of the group at the kind's offset, and a field's place is counted from
there. -/
theorem fieldViewReads : Obligations.FieldViewReads := by
  refine ⟨fun s i h row before after k f b hp found group field => ?reads, fun s i k f refused => ?refused⟩
  case reads =>
    have distinct := Params.valid_nodup hp found
    rw [group] at distinct
    have notBefore : k ∉ before := fun mem => (List.nodup_middle.mp distinct).notMem (List.mem_append_left after mem)
    have place : s.par.fldPlace s.regs.ti k f = some ⟨8 * s.par.groupSize before + b.lo, b.width⟩ :=
      Params.fldPlace_eq_some_iff.mpr
        ⟨row, _, b, found, group ▸ Params.kindOffset_append notBefore after, field, rfl⟩
    rw [hostRead, fldRead_of_lt h, place, Option.map_some, unpackField, getBits_slice _ (Params.fieldOf_le hp field)]
    rfl
  case refused =>
    rcases Nat.lt_or_ge i Config.nslot with h | h
    · have noPlace : s.par.fldPlace s.regs.ti k f = none :=
        Params.fldPlace_eq_none (refused.imp_right (Or.imp_right fun r => r.resolve_right (Nat.not_le.mpr h)))
      rw [hostRead, fldRead_of_lt h, noPlace, Option.map_none]
    · exact fldRead_of_ge h k f

/-- A slot with the bits of a place of its group replaced (R31). -/
def setEgField (p : BitField) (v : Nat) (sl : Slot) : Slot := { sl with eg := egSetField sl.eg p v }

@[simp] theorem setEgField_addr (p : BitField) (v : Nat) (sl : Slot) : (setEgField p v sl).addr = sl.addr := rfl

@[simp] theorem setEgField_eg (p : BitField) (v : Nat) (sl : Slot) :
    (setEgField p v sl).eg = egSetField sl.eg p v := rfl

theorem fldWrite_of_place {s : State} {i : Nat} {k : Kind} {f : Field} {v : Nat} {p : BitField}
    (place : s.par.fldPlace s.regs.ti k f = some p) (hi : i < Config.nslot) (hv : v < 2 ^ p.width) :
    fldWrite s i k f v = s.updateSlot i (setEgField p v) := by
  rw [fldWrite, place]
  exact if_pos ⟨hi, hv⟩

/-- A write through the view is refused when the field has no place, the slot does not exist or the value is wider than
the field (R31, R275). -/
theorem fldWrite_refused {s : State} {i : Nat} {k : Kind} {f : Field} {v : Nat}
    (h : ∀ p, s.par.fldPlace s.regs.ti k f = some p → i < Config.nslot → 2 ^ p.width ≤ v) :
    fldWrite s i k f v = s := by
  rw [fldWrite]
  cases place : s.par.fldPlace s.regs.ti k f with
  | none => rfl
  | some p => exact if_neg fun ⟨hi, hv⟩ => Nat.not_le.mpr hv (h p place hi)

/-- What a read through the view finds in a slot whose place p was written. -/
theorem fldRead_setEgField {s : State} {i : Nat} (hi : i < Config.nslot) (p : BitField) (v : Nat) (k : Kind)
    (f : Field) :
    fldRead (s.updateSlot i (setEgField p v)) i k f =
      (s.par.fldPlace s.regs.ti k f).map (egField (egSetField s.slots[i].eg p v)) := by
  rw [fldRead_of_lt hi, updateSlot_slots_self s _ hi, updateSlot_of_lt s _ hi, State.setSlots_par, State.setSlots_regs,
    setEgField_eg]

theorem updateSlot_setEgField_addr {s : State} {i : Nat} (p : BitField) (v : Nat) {j : Nat} (hj : j < Config.nslot) :
    (s.updateSlot i (setEgField p v)).slots[j].addr = s.slots[j].addr := by
  by_cases same : j = i
  · subst same
    rw [updateSlot_slots_self s _ hj, setEgField_addr]
  · rw [updateSlot_slots_of_ne s _ hj same]

/-- Settles O45: a write that is not refused sets the bits of one place of one group, and no two fields share a bit. -/
theorem fieldViewWrites : Obligations.FieldViewWrites := by
  intro s i k f v hp
  refine ⟨fun p place hi hv => ?writes, fun refused => ?refused⟩
  case writes =>
    have inGroup := Params.fldPlace_le hp place
    have write : applyAccess (.fld i k f v) s = s.updateSlot i (setEgField p v) := fldWrite_of_place place hi hv
    rw [write]
    refine ⟨?self, fun k' f' hne => ?others, fun _ m hm q hq outside => ?bits,
      fun j hj => ⟨updateSlot_setEgField_addr p v hj, updateSlot_slots_of_ne s _ hj⟩, updateSlot_restore s _⟩
    case self => rw [fldRead_setEgField hi, place, Option.map_some, egField_egSetField_self _ inGroup hv]
    case others =>
      rw [fldRead_setEgField hi, fldRead_of_lt hi]
      refine Option.map_congr fun q place' => ?_
      exact egField_egSetField_of_disjoint _ inGroup hv fun n => Params.fldPlace_disjoint hp place place' hne
    case bits =>
      rw [updateSlot_slots_self s _ hi, setEgField_eg]
      exact egSetField_getLsbD _ inGroup hv hm hq outside
  case refused =>
    refine fldWrite_refused fun q place hi => ?_
    rcases refused with none | noSlot | ⟨q', place', wide⟩
    · rw [none] at place; cases place
    · exact absurd hi (Nat.not_lt.mpr noSlot)
    · rw [place'] at place; cases place; exact wide

end Sys2Proof.Machine
end

section
/-! PROOFS. The encoding (spec/30_encoding.md): the word of each instruction, and decode and encode as inverses of each
other at the three levels (R86, R92 to R94, R101). -/

namespace Sys2Proof.Machine

/-! ## The word of an instruction -/

/-- The instruction of an ASDU-level row's word is that row (R93). -/
theorem typeInstr_of_asduWord {i : Instr} {ti vsq : Byte} (h : i.asduWord = some (ti, vsq)) :
    typeInstr ti vsq = some i := by
  cases i <;> cases h
  all_goals simp [typeInstr]

/-- The ASDU level is the rows that have a type identifier and a VSQ byte (R93). -/
theorem level_eq_asdu_iff {i : Instr} : i.level = .asdu ↔ ∃ ti vsq, i.asduWord = some (ti, vsq) := by
  cases i <;> simp [Instr.level, Instr.asduWord]

theorem level_of_typeInstr {ti vsq : Byte} {i : Instr} (h : typeInstr ti vsq = some i) : i.level = .asdu := by
  unfold typeInstr at h
  split at h <;> cases h
  all_goals rfl

/-- A word that a registry allows has a row there, which is sequence-legal when SQ is 1 (R94, R189). -/
theorem wordOk_row {rs : List Row} {ti vsq : Byte} (h : wordOk rs ti vsq = true) :
    ∃ row, findRow ti rs = some row ∧ (vsqSq vsq = 0 ∨ row.seqLegal = true) := by
  unfold wordOk at h
  split at h
  · cases h
  · rename_i row found
    simp only [Bool.and_eq_true, Bool.or_eq_true, beq_iff_eq] at h
    exact ⟨row, found, h.2⟩

theorem wellFormed_of_asduWord {rs : List Row} {i : Instr} {ti vsq : Byte} (h : i.asduWord = some (ti, vsq)) :
    i.wellFormed rs = wordOk rs ti vsq := by
  simp only [Instr.wellFormed, h]

/-! ## Decode of encode -/

theorem decodeLink_encode {i : Instr} (h : i.level = .link) (rest : List Byte) :
    decodeLink (encode i ++ rest) = .ok i := by
  cases i <;> cases h <;> rfl

theorem decodeCmdByte_encode {i : Instr} (h : i.level = .cmd) (rest : List Byte) :
    decodeCmdByte (encode i ++ rest) = .ok i := by
  cases i <;> cases h <;> rfl

theorem decodeAsduWord_encode {rs : List Row} {i : Instr} (h : i.level = .asdu) (hw : i.wellFormed rs = true)
    (rest : List Byte) : decodeAsduWord rs (encode i ++ rest) = .ok i := by
  obtain ⟨ti, vsq, word⟩ := level_eq_asdu_iff.mp h
  have instr := typeInstr_of_asduWord word
  obtain ⟨row, found, legal⟩ := wordOk_row (wellFormed_of_asduWord word ▸ hw)
  rw [encode_of_typeInstr instr]
  exact decodeTypeWord_of_legal found legal instr

/-- Settles O1: one inverse per level; at the ASDU level a well-formed word is one the registry's row allows. -/
theorem decodeOfEncode : Obligations.DecodeOfEncode := by
  intro rs i rest hw
  cases h : i.level with
  | link => exact decodeLink_encode h rest
  | asdu => exact decodeAsduWord_encode h hw rest
  | cmd => exact decodeCmdByte_encode h rest

/-! ## Encode of decode -/

theorem decodeLink_ok {bs : List Byte} {i : Instr} (h : decodeLink bs = .ok i) :
    i.level = .link ∧ ∃ rest, bs = encode i ++ rest := by
  cases bs with
  | nil => cases h
  | cons b rest =>
    simp only [decodeLink] at h
    split at h <;> cases h
    all_goals
      rename b.toNat = _ => start
      exact ⟨rfl, rest, congrArg (· :: rest) (BitVec.eq_of_toNat_eq start)⟩

/-- A word the decoder accepts is that of its instruction, whatever the registry (R93, R94). -/
theorem typeInstr_of_decodeTypeWord {rs : List Row} {ti vsq : Byte} {i : Instr}
    (h : decodeTypeWord rs ti vsq = .ok i) : typeInstr ti vsq = some i := by
  unfold decodeTypeWord at h
  repeat' split at h
  all_goals cases h
  assumption

theorem decodeAsduWord_ok {rs : List Row} {bs : List Byte} {i : Instr} (h : decodeAsduWord rs bs = .ok i) :
    i.level = .asdu ∧ ∃ rest, bs = encode i ++ rest := by
  match bs, h with
  | ti :: vsq :: rest, h =>
    have instr := typeInstr_of_decodeTypeWord h
    exact ⟨level_of_typeInstr instr, rest, by rw [encode_of_typeInstr instr]; rfl⟩

/-- A command's byte holds its CMD.OP in bits 1:0 (R94, R270). -/
theorem encode_decodeCmd (op : BitVec 2) : encode (decodeCmd op) = [op.setWidth 8] := by
  revert op; decide

theorem decodeCmdByte_ok {bs : List Byte} {i : Instr} (h : decodeCmdByte bs = .ok i) :
    i.level = .cmd ∧ ∃ b rest, bs = b :: rest ∧ ∃ x, encode i = [x] ∧ x.toNat = b.toNat % 4 := by
  cases bs with
  | nil => cases h
  | cons b rest =>
    cases h
    refine ⟨decodeCmd_level _, b, rest, rfl, _, encode_decodeCmd _, ?_⟩
    simp only [BitVec.toNat_setWidth, BitVec.extractLsb'_toNat, Nat.shiftRight_zero]
    omega

/-- Settles O2: at each level the bytes read are those of the instruction's word. -/
theorem encodeOfDecode : Obligations.EncodeOfDecode := by
  intro rs l bs i h
  cases l with
  | link => exact decodeLink_ok h
  | asdu => exact decodeAsduWord_ok h
  | cmd => exact decodeCmdByte_ok h

/-! ## Words of the opcode table, and the link level's dispatch -/

/-- Settles O3: the decoder run on each word. -/
theorem tableWordsDecode : Obligations.TableWordsDecode :=
  ⟨rfl, rfl, rfl, rfl, rfl, rfl, rfl, rfl⟩

/-- Settles O4: the four start bytes are the decoder's own branches, and no other byte takes one of them. -/
theorem linkDispatch : Obligations.LinkDispatch := by
  intro rs b rest
  simp only [decode, decodeLink]
  split
  case h_5 notAck notNack notFixed notVariable =>
    rw [if_neg notAck, if_neg notNack, if_neg notFixed, if_neg notVariable]
  all_goals
    rename b.toNat = _ => start
    rw [start]; rfl

end Sys2Proof.Machine
end

section
/-! PROOFS. The forty types as bare ASDUs (spec/45_type_registry.md R220 to R260): what the meaning of an ASDU-level row
does under any parameters, the rows of the spec's tables, and the size of an encoded ASDU (spec/30_encoding.md R99). -/

namespace Sys2Proof.Machine

/-! ## The decode of one type -/

theorem decTyped_of_size {p : Params} {ti : Byte} {sq : Bit} {num : BitVec 7} {row : Row} {w : List Byte}
    (found : p.lookup ti = some row) (hn : num ≠ 0) (legal : sq = 1 → row.seqLegal = true)
    (size : w.length = 4 + objsSize (p.gsize row) sq num) (a : Nat) :
    decTyped p ti sq num a w =
      .ok { ti := ti, sq := sq, num := num, test := cotTest (byteAt w 2), neg := cotNeg (byteAt w 2),
            cot := cotCause (byteAt w 2), ca := byteAt w 3, objs := decObjs (p.gsize row) sq num (w.drop 4) } := by
  have allowed : ¬ (sq = 1 ∧ row.seqLegal = false) := fun ⟨h1, h0⟩ => by simp [legal h1] at h0
  simp only [decTyped, if_neg (show ¬ w.length < 4 by omega), if_neg hn, found, if_neg allowed]
  rw [if_neg (by omega), if_neg (by omega)]

theorem decTyped_of_illegal {p : Params} {ti : Byte} {num : BitVec 7} {row : Row} {w : List Byte}
    (found : p.lookup ti = some row) (hn : num ≠ 0) (illegal : row.seqLegal = false) (hw : 4 ≤ w.length) (a : Nat) :
    decTyped p ti 1 num a w = .error ⟨.illegalSequenceMode, a + 1⟩ := by
  simp only [decTyped, if_neg (Nat.not_lt.mpr hw), if_neg hn, found, illegal, and_self, if_true]

/-! ## The meaning of an ASDU-level row -/

/-- A row's meaning is its type's decode on WIRE (R273). -/
theorem exec_of_asduWord {i : Instr} {ti vsq : Byte} (word : i.asduWord = some (ti, vsq)) (s : State) :
    exec i s = decodeAsduOp (decTyped s.par ti (vsqSq vsq) (vsqNum vsq) 0) s := by
  rw [exec_of_asdu (level_eq_asdu_iff.mpr ⟨ti, vsq, word⟩)]
  congr 1
  funext w
  exact decAsduInstr_of_word word s.par 0 w

/-- What is loaded when one type's decode accepts WIRE: the header bytes and the objects (R273). -/
theorem loadBareAsdu_loads {s : State} {w : List Byte} {d : Asdu} {g : Nat} (read : readWire s = some w)
    (size : w.length = 4 + objsSize g d.sq d.num) (cot : mkCotb d.test d.neg d.cot = byteAt w 2)
    (ca : d.ca = byteAt w 3) (objs : d.objs = decObjs g d.sq d.num (w.drop 4)) :
    LoadsBareAsdu s (loadBareAsdu s d) d.ti g d.sq d.num := by
  have bytes {k : Nat} (hk : k < w.length) : byteAt w k = s.byte k := readWire_byteAt read hk
  obtain ⟨wireSide, _⟩ := loadBareAsdu_keeps s d
  refine ⟨wireSide, ?regs, ?objects, rfl⟩
  case regs =>
    rw [loadBareAsdu_regs, asduRegs, cot, ca, bytes (by omega), bytes (by omega)]
    rfl
  case objects =>
    exact objects_loaded (fun k hk => by rw [bytes hk, Nat.zero_add]) size (loadBareAsdu_slots s d) rfl objs

/-- A legal header and exactly the bytes it implies are loaded (R184, R273). -/
theorem exec_asduWord_loads {i : Instr} {ti vsq : Byte} {row : Row} {s : State} (word : i.asduWord = some (ti, vsq))
    (hp : s.par.valid = true) (found : s.par.lookup ti = some row) (hn : vsqNum vsq ≠ 0)
    (legal : vsqSq vsq = 1 → row.seqLegal = true)
    (size : s.wlen.toNat = 4 + listBytes (s.par.gsize row) (vsqSq vsq) (vsqNum vsq).toNat) :
    ∃ t, exec i s = .next t ∧ t.cmd = s.cmd ∧
      LoadsBareAsdu s t ti (s.par.gsize row) (vsqSq vsq) (vsqNum vsq) := by
  rw [← objsSize_eq_listBytes] at size
  have inWire : s.wlen.toNat ≤ s.par.bufsz := by
    have := objsSize_le (vsqSq vsq) (vsqNum vsq) (Params.valid_gsize hp found).2
    have := (Params.valid_bufsz hp).1
    omega
  have read := readWire_of_le inWire
  have length := (readWire_length read).trans size
  have ok := decTyped_of_size found hn legal length 0
  refine ⟨_, (exec_of_asduWord word s).trans (decodeAsduOp_ok read ok), rfl, ?_⟩
  exact loadBareAsdu_loads read length (mkCotb_fields _) rfl rfl

/-- SQ = 1 on a sequence-illegal row is IllegalSequenceMode at the VSQ byte (R189, R299). -/
theorem exec_asduWord_illegal {i : Instr} {ti vsq : Byte} {row : Row} {s : State}
    (word : i.asduWord = some (ti, vsq)) (found : s.par.lookup ti = some row) (hn : vsqNum vsq ≠ 0)
    (hq : vsqSq vsq = 1) (illegal : row.seqLegal = false) (h4 : 4 ≤ s.wlen.toNat)
    (inWire : s.wlen.toNat ≤ s.par.bufsz) : FailsDecode i s s.cmd 6 1 := by
  have read := readWire_of_le inWire
  have error := decTyped_of_illegal found hn illegal (by rw [readWire_length read]; exact h4) 0
  rw [FailsDecode, exec_of_asduWord word, hq, decodeAsduOp_error read error]
  rfl

/-! ## The rows of the spec's tables -/

theorem OnSpecTables.valid {s : State} (h : OnSpecTables s) : s.par.valid = true := by
  obtain ⟨tables, low, high⟩ := h
  rw [tables]
  exact specTables_valid low high

/-- The spec's tables give a type identifier a group of g bytes, and say whether SQ = 1 is legal (R220). -/
def SpecRow (ti : Byte) (g : Nat) (legal : Bool) : Prop :=
  ∃ row, (∀ n, (specTables n).lookup ti = some row ∧ (specTables n).gsize row = g) ∧ row.seqLegal = legal

theorem SpecRow.lookup {ti : Byte} {g : Nat} {legal : Bool} (h : SpecRow ti g legal) {s : State}
    (tables : OnSpecTables s) :
    ∃ row, s.par.lookup ti = some row ∧ s.par.gsize row = g ∧ row.seqLegal = legal := by
  obtain ⟨row, each, seqLegal⟩ := h
  obtain ⟨found, size⟩ := each s.par.bufsz
  obtain ⟨par, _⟩ := tables
  rw [← par] at found size
  exact ⟨row, found, size, seqLegal⟩

/-- f is the instruction of a type that is sequence-legal in the spec's tables, of group size g. -/
def SequenceType (f : Bit → BitVec 7 → Instr) (ti : Byte) (g : Nat) : Prop :=
  (∀ sq n, (f sq n).asduWord = some (ti, mkVsq sq n)) ∧ SpecRow ti g true

/-- f is the instruction of a type that is sequence-illegal in the spec's tables, of group size g. -/
def DiscreteType (f : Byte → Instr) (ti : Byte) (g : Nat) : Prop :=
  (∀ vsq, (f vsq).asduWord = some (ti, vsq)) ∧ SpecRow ti g false

theorem SequenceType.loads {f : Bit → BitVec 7 → Instr} {ti : Byte} {g : Nat} (type : SequenceType f ti g)
    {s : State} (tables : OnSpecTables s) {sq : Bit} {n : BitVec 7} (hn : n ≠ 0)
    (size : s.wlen.toNat = 4 + listBytes g sq n.toNat) :
    ∃ t, exec (f sq n) s = .next t ∧ t.cmd = s.cmd ∧ LoadsBareAsdu s t ti g sq n := by
  obtain ⟨word, spec⟩ := type
  obtain ⟨row, found, rfl, legal⟩ := spec.lookup tables
  have loads := exec_asduWord_loads (s := s) (word sq n) tables.valid found
  rw [vsqSq_mkVsq, vsqNum_mkVsq] at loads
  exact loads hn (fun _ => legal) size

theorem DiscreteType.decodes {f : Byte → Instr} {ti : Byte} {g : Nat} (type : DiscreteType f ti g) {s : State}
    {vsq : Byte} (tables : OnSpecTables s) (hn : vsqNum vsq ≠ 0) :
    (vsqSq vsq = 0 → s.wlen.toNat = 4 + (vsqNum vsq).toNat * (2 + g) →
      ∃ t, exec (f vsq) s = .next t ∧ t.cmd = s.cmd ∧ LoadsBareAsdu s t ti g 0 (vsqNum vsq)) ∧
    (vsqSq vsq = 1 → 4 ≤ s.wlen.toNat → s.wlen.toNat ≤ s.par.bufsz → FailsDecode (f vsq) s s.cmd 6 1) := by
  obtain ⟨word, spec⟩ := type
  obtain ⟨row, found, rfl, illegal⟩ := spec.lookup tables
  refine ⟨fun hq size => ?discrete, fun hq => exec_asduWord_illegal (word vsq) found hn hq illegal⟩
  case discrete =>
    have loads := exec_asduWord_loads (word vsq) tables.valid found hn
    rw [hq] at loads
    exact loads (fun h => absurd h (by decide)) size

/-- Settles O15: each of the ten is a sequence-legal row of the spec's tables. -/
theorem sequenceTypesDecode : Obligations.SequenceTypesDecode := by
  intro f ti g mem s sq n tables hn size
  have type : SequenceType f ti g := by
    fin_cases mem <;> exact ⟨fun _ _ => rfl, _, fun _ => ⟨rfl, rfl⟩, rfl⟩
  refine type.loads tables hn (size.trans ?_)
  unfold listBytes
  split
  · rfl
  · omega

/-- Settles O16: each of the eleven is a sequence-illegal row of the spec's tables. -/
theorem cp24TypesDecode : Obligations.Cp24TypesDecode := by
  intro f ti g mem s vsq
  have type : DiscreteType f ti g := by
    fin_cases mem <;> exact ⟨fun _ => rfl, _, fun _ => ⟨rfl, rfl⟩, rfl⟩
  exact type.decodes

/-- Settles O17: each of the eleven is a sequence-illegal row of the spec's tables. -/
theorem cp56TypesDecode : Obligations.Cp56TypesDecode := by
  intro f ti g mem s vsq
  have type : DiscreteType f ti g := by
    fin_cases mem <;> exact ⟨fun _ => rfl, _, fun _ => ⟨rfl, rfl⟩, rfl⟩
  exact type.decodes

/-- Settles O18: each of the eight is a sequence-illegal row of the spec's tables, and NUM has no other bound than its
width. -/
theorem commandTypesDecode : Obligations.CommandTypesDecode := by
  intro f ti g mem s vsq
  have type : DiscreteType f ti g := by
    fin_cases mem <;> exact ⟨fun _ => rfl, _, fun _ => ⟨rfl, rfl⟩, rfl⟩
  exact type.decodes

/-! ## The size of an encoded ASDU (R99) -/

/-- Settles O48: the header is four bytes, the object list has its size by R99, and no group is longer than GMAX. -/
theorem asduSizeFormula : Obligations.AsduSizeFormula := by
  intro p r v b hp ok
  have bound := encAsdu_length hp ok
  rcases encAsdu_cases p r v with ⟨_, h⟩ | ⟨_, _, h⟩ | ⟨_, _, _, _, _, h⟩ | ⟨row, _, found, _, h⟩ <;>
    rw [h] at ok <;> cases ok
  refine ⟨p.gsize row, by rw [Params.gsizeOf, found, Option.map_some], ?size, bound⟩
  case size =>
    rw [List.length_append, encObjs_length _ _ _ _ (Params.valid_gsize hp found).2, objsSize_eq_listBytes]
    rfl

end Sys2Proof.Machine
end

section
/-! PROOFS. One ASDU (spec/43_asdu_dispatch.md R184, R190): `dec_asdu` as the decode of one type, what it accepts, and
decode and encode as inverses of each other up to the abstract record (R34, R192). -/

namespace Sys2Proof.Machine

/-! ## `dec_asdu` is the decode of the type its first byte names (R184) -/

theorem asduWord_of_typeInstr {ti vsq : Byte} {i : Instr} (h : typeInstr ti vsq = some i) :
    i.asduWord = some (ti, vsq) := by
  obtain ⟨ti', vsq', word⟩ := level_eq_asdu_iff.mp (level_of_typeInstr h)
  have same := (encode_of_typeInstr (typeInstr_of_asduWord word)).symm.trans (encode_of_typeInstr h)
  cases same
  exact word

theorem decTyped_of_short {p : Params} {ti : Byte} {sq : Bit} {num : BitVec 7} {w : List Byte} (hw : w.length < 4)
    (a : Nat) : decTyped p ti sq num a w = .error ⟨.truncatedInput, a + w.length⟩ := if_pos hw

theorem decTyped_of_zero {p : Params} {ti : Byte} {sq : Bit} {w : List Byte} (hw : 4 ≤ w.length) (a : Nat) :
    decTyped p ti sq 0 a w = .error ⟨.vsqNumberZero, a + 1⟩ := by
  simp only [decTyped, if_neg (Nat.not_lt.mpr hw), if_true]

theorem decTyped_of_unknown {p : Params} {ti : Byte} {sq : Bit} {num : BitVec 7} {w : List Byte}
    (unknown : p.lookup ti = none) (hn : num ≠ 0) (hw : 4 ≤ w.length) (a : Nat) :
    decTyped p ti sq num a w = .error ⟨.unknownTypeId, a⟩ := by
  simp only [decTyped, if_neg (Nat.not_lt.mpr hw), if_neg hn, unknown]

/-- Fewer bytes than a legal header implies (R184 step 7). -/
theorem decTyped_of_missing {p : Params} {ti : Byte} {sq : Bit} {num : BitVec 7} {row : Row} {w : List Byte}
    (found : p.lookup ti = some row) (hn : num ≠ 0) (legal : sq = 1 → row.seqLegal = true)
    (size : w.length < 4 + objsSize (p.gsize row) sq num) (a : Nat) :
    decTyped p ti sq num a w = .error ⟨.truncatedInput, a + w.length⟩ := by
  by_cases short : w.length < 4
  · exact decTyped_of_short short a
  · have allowed : ¬ (sq = 1 ∧ row.seqLegal = false) := fun ⟨h1, h0⟩ => by simp [legal h1] at h0
    simp only [decTyped, if_neg short, if_neg hn, found, if_neg allowed]
    rw [if_pos (by omega)]

/-- More bytes than a legal header implies (R184 step 8). -/
theorem decTyped_of_excess {p : Params} {ti : Byte} {sq : Bit} {num : BitVec 7} {row : Row} {w : List Byte}
    (found : p.lookup ti = some row) (hn : num ≠ 0) (legal : sq = 1 → row.seqLegal = true)
    (size : 4 + objsSize (p.gsize row) sq num < w.length) (a : Nat) :
    decTyped p ti sq num a w = .error ⟨.lengthMismatch, a + 4 + objsSize (p.gsize row) sq num⟩ := by
  have allowed : ¬ (sq = 1 ∧ row.seqLegal = false) := fun ⟨h1, h0⟩ => by simp [legal h1] at h0
  simp only [decTyped, if_neg (show ¬ w.length < 4 by omega), if_neg hn, found, if_neg allowed]
  rw [if_neg (by omega), if_pos (by omega)]

/-- Under parameters that R6 allows the dispatch through the decoder is invisible: `dec_asdu` is the decode of the type
that the first byte names, with the fields of the second. -/
theorem decAsdu_eq_decTyped {p : Params} (hp : p.valid = true) (a : Nat) (w : List Byte) :
    decAsdu p a w = decTyped p (byteAt w 0) (vsqSq (byteAt w 1)) (vsqNum (byteAt w 1)) a w := by
  by_cases short : w.length < 4
  · rw [decTyped_of_short short, decAsdu, if_pos short]
  match w, Nat.not_lt.mp short with
  | ti :: vsq :: rest, long =>
    have word : decodeAsduWord p.registry (ti :: vsq :: rest) = decodeTypeWord p.registry ti vsq := rfl
    simp only [decAsdu, if_neg short, word]
    change (if vsqNum vsq = 0 then _ else _) = decTyped p ti (vsqSq vsq) (vsqNum vsq) a _
    by_cases zero : vsqNum vsq = 0
    · rw [if_pos zero, zero, decTyped_of_zero long]
    rw [if_neg zero]
    cases found : p.lookup ti with
    | none => rw [decodeTypeWord_of_unknown found, decTyped_of_unknown found zero long]; rfl
    | some row =>
      by_cases illegal : vsqSq vsq = 1 ∧ row.seqLegal = false
      · obtain ⟨hq, hs⟩ := illegal
        rw [decodeTypeWord_of_illegal found hq hs, hq, decTyped_of_illegal found zero hs long]
        rfl
      · have legal : vsqSq vsq = 0 ∨ row.seqLegal = true := by
          rcases BitVec.eq_zero_or_eq_one (vsqSq vsq) with h0 | h1
          · exact .inl h0
          · exact .inr (by simpa [h1] using illegal)
        obtain ⟨i, hi⟩ := Option.isSome_iff_exists.mp (typeInstr_isSome (Params.mem_typeIds_of_lookup hp found) vsq)
        rw [decodeTypeWord_of_legal found legal hi]
        exact decAsduInstr_of_word (asduWord_of_typeInstr hi) p a _

/-- What the decode of one type accepts (R184): a legal header and exactly the bytes it implies. -/
theorem decTyped_ok {p : Params} {ti : Byte} {sq : Bit} {num : BitVec 7} {a : Nat} {w : List Byte} {d : Asdu}
    (h : decTyped p ti sq num a w = .ok d) :
    ∃ row, p.lookup ti = some row ∧ num ≠ 0 ∧ (sq = 1 → row.seqLegal = true) ∧
      w.length = 4 + objsSize (p.gsize row) sq num ∧
      d = { ti := ti, sq := sq, num := num, test := cotTest (byteAt w 2), neg := cotNeg (byteAt w 2),
            cot := cotCause (byteAt w 2), ca := byteAt w 3, objs := decObjs (p.gsize row) sq num (w.drop 4) } := by
  rcases decTyped_cases p ti sq num a w with ⟨_, h'⟩ | ⟨_, _, h'⟩ | ⟨_, _, _, h'⟩ | ⟨row, _, hn, found, hc⟩
  case inr.inr.inr =>
    rcases hc with ⟨_, _, h'⟩ | ⟨legal, ⟨_, h'⟩ | ⟨_, h'⟩ | ⟨size, h'⟩⟩ <;> rw [h'] at h <;> cases h
    exact ⟨row, found, hn, legal, size, rfl⟩
  all_goals rw [h'] at h; cases h

/-! ## Object lists: what is loaded is what is viewed, and what is sent is what is decoded (R34, R186, R187) -/

/-- An object list of n objects whose groups have g bytes. -/
def Objs.Sized (g n : Nat) : Objs → Prop
  | .discrete l => l.length = n ∧ ∀ o ∈ l, o.2.length = g
  | .sequence _ gs => gs.length = n ∧ ∀ b ∈ gs, b.length = g

theorem decObjs_sized {g : Nat} {sq : Bit} {num : BitVec 7} {s : List Byte} (h : objsSize g sq num ≤ s.length) :
    (decObjs g sq num s).Sized g num.toNat := by
  unfold objsSize at h
  unfold decObjs
  split <;> rename_i hs
  · rw [if_pos hs] at h
    exact ⟨decDiscrete_length g _ s, decDiscrete_mem_length h⟩
  · rw [if_neg hs] at h
    exact ⟨decGroups_length g _ _, decGroups_mem_length (by rw [List.length_drop]; omega)⟩

/-- Sending a decoded object list back gives its bytes (R88, R89). -/
theorem decObjs_bytes {g : Nat} {sq : Bit} {num : BitVec 7} {s : List Byte} (h : s.length = objsSize g sq num) :
    (decObjs g sq num s).bytes = s := by
  unfold objsSize at h
  unfold decObjs
  split <;> rename_i hs
  · rw [if_pos hs] at h
    simp only [Objs.bytes]
    rw [decDiscrete_flatMap _ _ _ h.ge, ← h, List.take_length]
  · rw [if_neg hs] at h
    simp only [Objs.bytes]
    rw [decGroups_flatten, put16_le16 (by omega), List.take_of_length_le (by rw [List.length_drop]; omega)]
    exact List.take_append_drop 2 s

theorem take_padGroup_of_length {bs : List Byte} {g : Nat} (h : bs.length = g) (hg : g ≤ Config.gmax) :
    (padGroup bs).toList.take g = bs := by
  subst h; exact take_padGroup bs hg

/-- The first slots of a store in which an ASDU was loaded (R273). -/
theorem take_storeObjs (v : Vector Slot Config.nslot) (d : Asdu) :
    (storeObjs v d).toList.take d.num.toNat =
      (List.range d.num.toNat).map fun i => { addr := d.objs.addr i, eg := padGroup (d.objs.group i) } := by
  have hn : d.num.toNat ≤ Config.nslot := Nat.le_of_lt_succ d.num.isLt
  apply List.ext_getElem
  · simp [hn]
  · intro i h1 h2
    have hi : i < d.num.toNat := by simpa using h2
    rw [List.getElem_take, Vector.getElem_toList, storeObjs_of_lt v d i (by omega) hi]
    simp

/-- The view of a loaded list of objects with an address each (R34, R186). -/
theorem viewObjs_storeObjs_discrete {g : Nat} {d : Asdu} {l : List (Addr × List Byte)} (v : Vector Slot Config.nslot)
    (hg : g ≤ Config.gmax) (hd : d.objs = .discrete l) (sized : (Objs.discrete l).Sized g d.num.toNat) :
    viewObjs g 0 d.num (storeObjs v d) = .discrete l := by
  obtain ⟨count, groups⟩ := sized
  rw [viewObjs, if_pos rfl, take_storeObjs, List.map_map, hd]
  congr 1
  apply List.ext_getElem
  · simp [count]
  · intro i h1 h2
    simp only [List.getElem_map, List.getElem_range, Function.comp_apply, Objs.addr, Objs.group,
      List.getD_eq_getElem _ _ h2]
    rw [take_padGroup_of_length (groups _ (List.getElem_mem h2)) hg]

/-- The view of a loaded sequence (R34, R187); its base is the address of slot 0. -/
theorem viewObjs_storeObjs_sequence {g : Nat} {d : Asdu} {base : Addr} {gs : List (List Byte)}
    (v : Vector Slot Config.nslot) (hg : g ≤ Config.gmax) (hn : d.num ≠ 0) (hd : d.objs = .sequence base gs)
    (sized : (Objs.sequence base gs).Sized g d.num.toNat) :
    viewObjs g 1 d.num (storeObjs v d) = .sequence base gs := by
  obtain ⟨count, groups⟩ := sized
  have pos : 0 < d.num.toNat := Nat.pos_of_ne_zero fun h => hn (BitVec.eq_of_toNat_eq h)
  rw [viewObjs, if_neg (by decide), storeObjs_of_lt v d 0 (by decide) pos, take_storeObjs, List.map_map, hd]
  congr 1
  · exact BitVec.add_zero base
  · apply List.ext_getElem
    · simp [count]
    · intro i h1 h2
      simp only [List.getElem_map, List.getElem_range, Function.comp_apply, Objs.group, List.getD_eq_getElem _ _ h2]
      rw [take_padGroup_of_length (groups _ (List.getElem_mem h2)) hg]

/-- The view of a loaded object list is that list (R34, R273). -/
theorem viewObjs_storeObjs {g : Nat} {d : Asdu} {s : List Byte} (v : Vector Slot Config.nslot) (hg : g ≤ Config.gmax)
    (hn : d.num ≠ 0) (hd : d.objs = decObjs g d.sq d.num s) (hs : objsSize g d.sq d.num ≤ s.length) :
    viewObjs g d.sq d.num (storeObjs v d) = d.objs := by
  have sized := decObjs_sized hs
  rcases BitVec.eq_zero_or_eq_one d.sq with hq | hq <;> rw [hq] at hd sized ⊢
  · rw [hd]
    exact viewObjs_storeObjs_discrete v hg hd sized
  · rw [hd]
    exact viewObjs_storeObjs_sequence v hg hn hd sized

theorem decDiscrete_slotBytes {g : Nat} (hg : g ≤ Config.gmax) (l : List Slot) :
    decDiscrete g l.length (l.flatMap (slotDiscreteBytes g)) = l.map fun sl => (sl.addr, sl.eg.toList.take g) := by
  induction l with
  | nil => rfl
  | cons sl l ih =>
    have size := slotDiscreteBytes_length g sl hg
    have group : (sl.eg.toList.take g).length = g := by simp [hg]
    rw [List.length_cons, decDiscrete, List.flatMap_cons, List.drop_left' size, ih, List.map_cons]
    congr 2
    · rw [slotDiscreteBytes, List.append_assoc, le16_put16]
    · rw [slice, slotDiscreteBytes, List.append_assoc, List.drop_left' (put16_length _),
        List.take_left' (by rw [group]; omega)]

theorem decGroups_slotBytes {g : Nat} (hg : g ≤ Config.gmax) (l : List Slot) :
    decGroups g l.length (l.flatMap (slotGroupBytes g)) = l.map fun sl => sl.eg.toList.take g := by
  induction l with
  | nil => rfl
  | cons sl l ih =>
    have size := slotGroupBytes_length g sl hg
    rw [List.length_cons, decGroups, List.flatMap_cons, List.drop_left' size, ih, List.map_cons]
    congr 1
    rw [slice, List.drop_zero, Nat.sub_zero, List.take_left' size, slotGroupBytes]

/-- Decoding the object list that an encode sends gives the view of the object store (R34, R190). -/
theorem decObjs_encObjs {g : Nat} (hg : g ≤ Config.gmax) (sq : Bit) (num : BitVec 7) (v : Vector Slot Config.nslot) :
    decObjs g sq num (encObjs g sq num v) = viewObjs g sq num v := by
  have hn : num.toNat ≤ Config.nslot := Nat.le_of_lt_succ num.isLt
  have hl : (v.toList.take num.toNat).length = num.toNat := by simp [hn]
  unfold decObjs encObjs viewObjs
  split
  · congr 1
    have sent := decDiscrete_slotBytes hg (v.toList.take num.toNat)
    rwa [hl] at sent
  · congr 1
    · exact le16_put16 _ _
    · rw [List.drop_left' (put16_length _)]
      have sent := decGroups_slotBytes hg (v.toList.take num.toNat)
      rwa [hl] at sent

/-! ## Round trips (R34, R192) -/

/-- `enc_asdu` of a record with a legal header (R190). -/
theorem encAsdu_of_legal {p : Params} {r : Regs} {row : Row} (found : p.lookup r.ti = some row)
    (hn : vsqNum r.vsq ≠ 0) (legal : vsqSq r.vsq = 1 → row.seqLegal = true) (v : Vector Slot Config.nslot) :
    encAsdu p r v = .ok ([r.ti, r.vsq, r.cotb, r.ca] ++ encObjs (p.gsize row) (vsqSq r.vsq) (vsqNum r.vsq) v) := by
  have allowed : ¬ (vsqSq r.vsq = 1 ∧ row.seqLegal = false) := fun ⟨h1, h0⟩ => by simp [legal h1] at h0
  simp only [encAsdu, if_neg hn, found, if_neg allowed]

/-- What `enc_asdu` can send is that of a record with a legal header (R190). -/
theorem encAsdu_ok {p : Params} {r : Regs} {v : Vector Slot Config.nslot} {b : List Byte}
    (h : encAsdu p r v = .ok b) :
    ∃ row, p.lookup r.ti = some row ∧ vsqNum r.vsq ≠ 0 ∧ (vsqSq r.vsq = 1 → row.seqLegal = true) ∧
      b = [r.ti, r.vsq, r.cotb, r.ca] ++ encObjs (p.gsize row) (vsqSq r.vsq) (vsqNum r.vsq) v := by
  rcases encAsdu_cases p r v with ⟨_, h'⟩ | ⟨_, _, h'⟩ | ⟨_, _, _, _, _, h'⟩ | ⟨row, hn, found, legal, h'⟩ <;>
    rw [h'] at h <;> cases h
  exact ⟨row, found, hn, legal, rfl⟩

@[simp] theorem asduRegs_ti (r : Regs) (d : Asdu) : (asduRegs r d).ti = d.ti := rfl
@[simp] theorem asduRegs_cotb (r : Regs) (d : Asdu) : (asduRegs r d).cotb = mkCotb d.test d.neg d.cot := rfl
@[simp] theorem asduRegs_ca (r : Regs) (d : Asdu) : (asduRegs r d).ca = d.ca := rfl

@[simp] theorem cotTest_mkCotb (t n : Bit) (c : BitVec 6) : cotTest (mkCotb t n c) = t := by
  revert t n c; decide

@[simp] theorem cotNeg_mkCotb (t n : Bit) (c : BitVec 6) : cotNeg (mkCotb t n c) = n := by
  revert t n c; decide

@[simp] theorem cotCause_mkCotb (t n : Bit) (c : BitVec 6) : cotCause (mkCotb t n c) = c := by
  revert t n c; decide

/-- The view of a loaded ASDU is the ASDU that was decoded (R34, R273). -/
theorem viewAsdu_of_decAsdu {p : Params} (hp : p.valid = true) {a : Nat} {w : List Byte} {d : Asdu}
    (h : decAsdu p a w = .ok d) (r : Regs) (v : Vector Slot Config.nslot) :
    viewAsdu p (asduRegs r d) (storeObjs v d) = some d := by
  rw [decAsdu_eq_decTyped hp] at h
  obtain ⟨row, found, hn, _, size, hd⟩ := decTyped_ok h
  have objs : viewObjs (p.gsize row) d.sq d.num (storeObjs v d) = d.objs := by
    subst hd
    exact viewObjs_storeObjs v (Params.valid_gsize hp found).2 hn rfl (by simp only [List.length_drop]; omega)
  have known : p.lookup d.ti = some row := by rw [hd]; exact found
  have num : d.num ≠ 0 := by rw [hd]; exact hn
  simp only [viewAsdu, asduRegs_ti, known, asduRegs_vsq, vsqNum_mkVsq, if_neg num, vsqSq_mkVsq, asduRegs_cotb,
    cotTest_mkCotb, cotNeg_mkCotb, cotCause_mkCotb, asduRegs_ca, objs]

/-- A decoded ASDU is sent as the bytes it came from (R192). -/
theorem encode_of_decAsdu {p : Params} (hp : p.valid = true) {a : Nat} {w : List Byte} {d : Asdu}
    (h : decAsdu p a w = .ok d) : d.encode p = .ok w := by
  rw [decAsdu_eq_decTyped hp] at h
  obtain ⟨row, found, _, legal, size, rfl⟩ := decTyped_ok h
  have allowed : ¬ (vsqSq (byteAt w 1) = 1 ∧ p.seqLegal (byteAt w 0) = false) := by
    rintro ⟨h1, h0⟩
    simp only [Params.seqLegal, found, legal h1] at h0
    cases h0
  simp only [Asdu.encode, if_neg allowed, mkVsq_vsqSq_vsqNum, mkCotb_fields]
  rw [decObjs_bytes (by rw [List.length_drop, size]; omega)]
  match w, size with
  | x0 :: x1 :: x2 :: x3 :: rest, _ => rfl
  | [], size | [_], size | [_, _], size | [_, _, _], size => simp at size; omega

/-- What `enc_asdu` sends is decoded, at any offset, to the view of the record it was sent from (R34, R192). -/
theorem decAsdu_of_encAsdu {p : Params} (hp : p.valid = true) {r : Regs} {v : Vector Slot Config.nslot}
    {b : List Byte} (h : encAsdu p r v = .ok b) (a : Nat) :
    ∃ d, decAsdu p a b = .ok d ∧ viewAsdu p r v = some d := by
  obtain ⟨row, found, hn, legal, rfl⟩ := encAsdu_ok h
  have hg := (Params.valid_gsize hp found).2
  have size : ([r.ti, r.vsq, r.cotb, r.ca] ++ encObjs (p.gsize row) (vsqSq r.vsq) (vsqNum r.vsq) v).length =
      4 + objsSize (p.gsize row) (vsqSq r.vsq) (vsqNum r.vsq) := by
    rw [List.length_append, encObjs_length _ _ _ _ hg]; rfl
  refine ⟨_, (decAsdu_eq_decTyped hp a _).trans (decTyped_of_size found hn legal size a), ?_⟩
  simp only [viewAsdu, found, if_neg hn]
  congr 2
  exact (decObjs_encObjs hg _ _ v).symm

end Sys2Proof.Machine
end

section
/-! PROOFS. Link frames as decodes of WIRE (spec/40_link_frames.md R110 to R117): the bytes of a fixed and of a variable
frame, what each decode answers on them, and the instructions that run it. -/

namespace Sys2Proof.Machine

/-! ## The control byte (R115) -/

theorem ctl_ctlbyte (r : Control) : ctl (ctlbyte r) = r := by
  obtain ⟨res, prm, fcb, fcv, fc⟩ := r
  revert res prm fcb fcv fc
  decide

theorem ctlbyte_toNat (r : Control) :
    (ctlbyte r).toNat =
      128 * r.res.toNat + 64 * r.prm.toNat + 32 * r.fcb.toNat + 16 * r.fcv.toNat + r.fc.toNat := by
  obtain ⟨res, prm, fcb, fcv, fc⟩ := r
  revert res prm fcb fcv fc
  decide

/-- Settles O40: over all bytes and all records. -/
theorem controlByteInverse : Obligations.ControlByteInverse :=
  ⟨ctlbyte_ctl, ctl_ctlbyte, ctlbyte_toNat⟩

/-! ## Bytes of WIRE as a byte string -/

/-- The bytes of WIRE from offset 0, as the string a decode is given. -/
theorem readBytes_eq_map_byte (s : State) (n : Nat) : Memory.readBytes s.wire 0 n = (List.range n).map s.byte := by
  refine bytes_ext (by simp) fun i hi => ?_
  have hi' : i < n := by simpa using hi
  rw [Memory.byteAt_readBytes _ _ _ _ hi', Nat.zero_add]
  simp [byteAt, hi', State.byte]

section
variable {s : State} {w : List Byte} (read : readWire s = some w)
include read

theorem readWire_byte {k : Nat} (hk : k < s.wlen.toNat) : byteAt w k = s.byte k :=
  readWire_byteAt read (readWire_length read ▸ hk)

/-- CSERR over a slice of what a decode is given is CSERR over those bytes of WIRE (R114). -/
theorem readWire_cserrAt (c : Byte) (a n : Nat) (h : a + n ≤ s.wlen.toNat) :
    cscheck s.cfg.csmode c (slice w a (a + n)) = s.cserrAt c a n := by
  have length := readWire_length read
  refine (cserrAt_eq s c a n _ (by rw [slice_length]; omega) fun i hi => ?_).symm
  rw [byteAt_slice w (by omega), readWire_byte read (by omega)]

theorem readWire_sumAt (a n : Nat) (h : a + n ≤ s.wlen.toNat) : (cssum (slice w a (a + n))).toNat = s.sumAt a n := by
  have length := readWire_length read
  refine (sumAt_eq s a n _ (by rw [slice_length]; omega) fun i hi => ?_).symm
  rw [byteAt_slice w (by omega), readWire_byte read (by omega)]

end

/-! ## The checksum policy (R114) -/

/-- FATAL finds the checksum byte c wrong over the bytes of the body. -/
def ChecksumFatal (m : BitVec 2) (c : Byte) (body : List Byte) : Prop := m = csFatal ∧ cscheck m c body = 1

theorem checksumFatal_iff {m : BitVec 2} {c : Byte} {body : List Byte} :
    ChecksumFatal m c body ↔ m = csFatal ∧ c ≠ cssum body := by
  unfold ChecksumFatal cscheck
  constructor
  · rintro ⟨rfl, h⟩
    exact ⟨rfl, fun e => by simp [e] at h⟩
  · rintro ⟨rfl, h⟩
    exact ⟨rfl, by simp [h]⟩

/-! ## Single characters (R110, R111) -/

theorem decSingle_of_length {w : List Byte} (h : w.length = 1) (neg : Bit) :
    decSingle neg w = .ok { frame := .singleChar neg, len := 0, cserr := 0 } := by
  rw [decSingle, if_neg (by omega)]

/-! ## The fixed frame (R112) -/

/-- The bytes of a fixed frame from its second on: five bytes, the last the end byte. -/
structure IsFixed (w : List Byte) : Prop where
  length : w.length = 5
  stop : byteAt w 4 = 0x16

/-- What is read from a fixed frame (R112). -/
def fixedResult (m : BitVec 2) (w : List Byte) : FrameResult :=
  { frame := .fixed (ctl (byteAt w 1)) (byteAt w 2) (byteAt w 3), len := 0,
    cserr := cscheck m (byteAt w 3) (slice w 1 3) }

theorem decFixed_of_fatal {m : BitVec 2} {w : List Byte} (h : IsFixed w)
    (fatal : ChecksumFatal m (byteAt w 3) (slice w 1 3)) : decFixed m w = .error ⟨.checksumMismatch, 3⟩ := by
  have length := h.length
  rw [decFixed, if_neg (by omega), if_neg (not_not.mpr h.stop), if_neg (by omega)]
  exact if_pos fatal

/-- A fixed frame is accepted exactly when it has its form and FATAL does not find its checksum wrong (R112). -/
theorem decFixed_ok_iff {m : BitVec 2} {w : List Byte} {x : FrameResult} :
    decFixed m w = .ok x ↔ IsFixed w ∧ ¬ ChecksumFatal m (byteAt w 3) (slice w 1 3) ∧ x = fixedResult m w := by
  constructor
  · intro h
    unfold decFixed at h
    repeat' split at h
    all_goals cases h
    rename_i long stop short fatal
    exact ⟨⟨by omega, not_not.mp stop⟩, fatal, rfl⟩
  · rintro ⟨⟨length, stop⟩, fatal, rfl⟩
    rw [decFixed, if_neg (by omega), if_neg (not_not.mpr stop), if_neg (by omega)]
    exact if_neg fatal

/-! ## The variable frame (R113) -/

/-- The bytes of a variable frame of length L from its second on: the length byte twice, the second start byte, L bytes
of control byte, link address and payload, the checksum byte and the end byte. -/
structure IsVariable (w : List Byte) (L : Nat) : Prop where
  two_le : 2 ≤ L
  length : w.length = L + 6
  len : (byteAt w 1).toNat = L
  lenAgain : byteAt w 2 = byteAt w 1
  start : byteAt w 3 = 0x68
  stop : byteAt w (L + 5) = 0x16

/-- What is read from a variable frame of length L whose payload is read as asdu (R113). -/
def variableResult (m : BitVec 2) (L : Nat) (w : List Byte) (asdu : Option Asdu) : FrameResult :=
  { frame := .variableFrame (ctl (byteAt w 4)) (byteAt w 5) (byteAt w (L + 4)) asdu, len := BitVec.ofNat 8 L,
    cserr := cscheck m (byteAt w (L + 4)) (slice w 4 (L + 4)) }

theorem IsVariable.decVariable_eq {w : List Byte} {L : Nat} (h : IsVariable w L) (p : Params) (m : BitVec 2) :
    decVariable p m w =
      if m = csFatal ∧ cscheck m (byteAt w (L + 4)) (slice w 4 (L + 4)) = 1 then .error ⟨.checksumMismatch, L + 4⟩
      else match decPayload p L w with
        | .error e => .error e
        | .ok asdu => .ok (variableResult m L w asdu) := by
  obtain ⟨two_le, length, len, lenAgain, start, stop⟩ := h
  rw [decVariable, if_neg (by omega), if_neg (by omega), if_neg (by omega), if_neg (not_not.mpr lenAgain),
    if_neg (by omega), if_neg (not_not.mpr start), len, decVariableBody, if_neg (by omega),
    if_neg (not_not.mpr stop), if_neg (by omega)]
  rfl

theorem decVariable_of_fatal {w : List Byte} {L : Nat} (h : IsVariable w L) {m : BitVec 2}
    (fatal : ChecksumFatal m (byteAt w (L + 4)) (slice w 4 (L + 4))) (p : Params) :
    decVariable p m w = .error ⟨.checksumMismatch, L + 4⟩ := by
  rw [h.decVariable_eq]
  exact if_pos fatal

theorem decVariable_of_payload_error {w : List Byte} {L : Nat} (h : IsVariable w L) {m : BitVec 2}
    (fatal : ¬ ChecksumFatal m (byteAt w (L + 4)) (slice w 4 (L + 4))) {p : Params} {e : CodecErr}
    (payload : decPayload p L w = .error e) : decVariable p m w = .error e := by
  rw [h.decVariable_eq, payload]
  exact if_neg fatal

theorem decVariable_of_payload {w : List Byte} {L : Nat} (h : IsVariable w L) {m : BitVec 2}
    (fatal : ¬ ChecksumFatal m (byteAt w (L + 4)) (slice w 4 (L + 4))) {p : Params} {asdu : Option Asdu}
    (payload : decPayload p L w = .ok asdu) : decVariable p m w = .ok (variableResult m L w asdu) := by
  rw [h.decVariable_eq, payload]
  exact if_neg fatal

/-- What a variable frame's decode accepts (R113). -/
theorem decVariable_ok {p : Params} {m : BitVec 2} {w : List Byte} {x : FrameResult}
    (h : decVariable p m w = .ok x) :
    ∃ L asdu, IsVariable w L ∧ ¬ ChecksumFatal m (byteAt w (L + 4)) (slice w 4 (L + 4)) ∧
      decPayload p L w = .ok asdu ∧ x = variableResult m L w asdu := by
  unfold decVariable at h
  repeat' split at h
  case isFalse.isFalse.isFalse.isFalse.isFalse.isFalse two_le _ lenAgain _ start =>
    unfold decVariableBody at h
    repeat' split at h
    all_goals cases h
    rename_i long stop short fatal _ asdu payload
    exact ⟨_, asdu, ⟨by omega, by omega, rfl, not_not.mp lenAgain, not_not.mp start, not_not.mp stop⟩, fatal,
      payload, rfl⟩
  all_goals cases h

/-- The payload of a variable frame: none when L is 2, else the ASDU at offset 6 (R113 step 13, R117). -/
theorem decPayload_empty (p : Params) (w : List Byte) : decPayload p 2 w = .ok none := rfl

theorem decPayload_asdu {L : Nat} (h : L ≠ 2) {p : Params} {w : List Byte} {d : Asdu}
    (ok : decAsdu p 6 (slice w 6 (L + 4)) = .ok d) : decPayload p L w = .ok (some d) := by
  rw [decPayload, if_neg h, ok]

theorem decPayload_error {L : Nat} (h : L ≠ 2) {p : Params} {w : List Byte} {e : CodecErr}
    (error : decAsdu p 6 (slice w 6 (L + 4)) = .error e) : decPayload p L w = .error e := by
  rw [decPayload, if_neg h, error]

theorem decPayload_ok {p : Params} {L : Nat} {w : List Byte} {asdu : Option Asdu}
    (h : decPayload p L w = .ok asdu) :
    (L = 2 ∧ asdu = none) ∨ (L ≠ 2 ∧ ∃ d, decAsdu p 6 (slice w 6 (L + 4)) = .ok d ∧ asdu = some d) := by
  unfold decPayload at h
  split at h
  · cases h; exact .inl ⟨by assumption, rfl⟩
  · split at h <;> cases h
    exact .inr ⟨by assumption, _, by assumption, rfl⟩

/-! ## The instructions that decode a frame (R116, R271) -/

theorem decFrame_of_decodeLink {w : List Byte} {i : Instr} (h : decodeLink w = .ok i) (p : Params) (m : BitVec 2) :
    decFrame p m w = decLinkInstr p i m w := by
  simp only [decFrame, h]

theorem nonEmpty_of_pos {w : List Byte} (h : w.length ≠ 0) (f : BitVec 2 → List Byte → Except CodecErr FrameResult)
    (m : BitVec 2) : nonEmpty f m w = f m w := if_neg h

/-- A link-level decode is decided by what its function answers on the bytes of WIRE. -/
theorem decodeFrameOp_congr {f g : BitVec 2 → List Byte → Except CodecErr FrameResult} {s : State} {w : List Byte}
    (read : readWire s = some w) (h : f s.cfg.csmode w = g s.cfg.csmode w) : decodeFrameOp f s = decodeFrameOp g s := by
  simp only [decodeFrameOp, read, h]

/-- DEC_FRAME runs the link-level row that the first byte of WIRE selects (R116). -/
theorem exec_decFrame_of_decodeLink {s : State} {w : List Byte} {i : Instr} (read : readWire s = some w)
    (h : decodeLink w = .ok i) : exec .decFrame s = exec i (s.setCmd 0) := by
  obtain ⟨level, rest, rfl⟩ := decodeLink_ok h
  have nonempty : (encode i ++ rest).length ≠ 0 := by cases i <;> cases level <;> exact Nat.succ_ne_zero _
  rw [exec_decFrame, exec_of_link level]
  refine decodeFrameOp_congr read ?_
  rw [decFrame_of_decodeLink h, nonEmpty_of_pos nonempty]
  rfl

theorem wellFormed_of_link {i : Instr} (h : i.level = .link) (rs : List Row) : i.wellFormed rs = true := by
  cases i <;> cases h <;> rfl

/-- Settles O8: the bytes of WIRE are what the decode is given, and DEC_FRAME dispatches on them with the decoder. -/
theorem startDecFrameRunsFrame : Obligations.StartDecFrameRunsFrame := by
  intro s rest i pending inWire decoded
  have read : readWire (s.setPending rest) = some ((List.range s.wlen.toNat).map s.byte) := by
    rw [readWire_setPending, readWire_of_le inWire, readBytes_eq_map_byte]
  have run : step s = exec .decFrame (s.setPending rest) := by simp only [step, pending]; rfl
  refine ⟨wellFormed_of_link (decodeLink_ok decoded).1 _, ?_⟩
  rw [run, exec_decFrame_of_decodeLink read decoded]
  rfl

/-- Settles O10: a buffer of one byte passes the length test of a single character. -/
theorem singleCharacterDecodes : Obligations.SingleCharacterDecodes := by
  intro s one inWire
  have read := readWire_of_le inWire
  have length : (Memory.readBytes s.wire 0 s.wlen.toNat).length = 1 := by rw [readWire_length read, one]; rfl
  have single := decSingle_of_length length
  have nonempty := nonEmpty_of_pos (w := Memory.readBytes s.wire 0 s.wlen.toNat) (by omega)
  exact ⟨decodeFrameOp_ok read ((nonempty decAck _).trans (single 0)),
    decodeFrameOp_ok read ((nonempty decNack _).trans (single 1))⟩

/-- The premise that the policy is not FATAL with a wrong checksum, on bytes of WIRE. -/
theorem not_checksumFatal_of_cserrAt {s : State} {w : List Byte} (read : readWire s = some w) {c : Byte} {a n : Nat}
    (h : a + n ≤ s.wlen.toNat) (policy : s.cfg.csmode = 2 → s.cserrAt c a n = 0) :
    ¬ ChecksumFatal s.cfg.csmode c (slice w a (a + n)) := by
  rintro ⟨mode, wrong⟩
  rw [readWire_cserrAt read c a n h, policy mode] at wrong
  cases wrong

/-- A fixed frame in WIRE. -/
theorem isFixed_of_wire {s : State} {w : List Byte} (read : readWire s = some w) (five : s.wlen = 5)
    (stop : s.byte 4 = 0x16) : IsFixed w := by
  have wlen : s.wlen.toNat = 5 := by rw [five]; rfl
  exact ⟨(readWire_length read).trans wlen, (readWire_byte read (by omega)).trans stop⟩

/-- Settles O11: the five bytes have the form of a fixed frame and FATAL finds nothing wrong. -/
theorem fixedFrameDecodes : Obligations.FixedFrameDecodes := by
  intro s five inWire stop policy
  have read := readWire_of_le inWire
  have wlen : s.wlen.toNat = 5 := by rw [five]; rfl
  have form := isFixed_of_wire read five stop
  have byte {k : Nat} (hk : k < 5) := readWire_byte read (k := k) (by omega)
  have accepts := not_checksumFatal_of_cserrAt read (by omega) policy
  rw [← byte (k := 3) (by omega)] at accepts
  have ok := decFixed_ok_iff.mpr ⟨form, accepts, rfl⟩
  refine (decodeFrameOp_ok read ((nonEmpty_of_pos (by rw [form.length]; omega) _ _).trans ok)).trans ?_
  simp only [loadFrame, fixedResult, frameRegs, frameSlots, ctlbyte_ctl, statusOk,
    readWire_cserrAt read _ 1 2 (by omega), byte (k := 1) (by omega), byte (k := 2) (by omega),
    byte (k := 3) (by omega)]
  rfl

/-- A variable frame of length L in WIRE. -/
theorem isVariable_of_wire {s : State} {w : List Byte} {L : Nat} (read : readWire s = some w) (two_le : 2 ≤ L)
    (wlen : s.wlen.toNat = L + 6) (len : (s.byte 1).toNat = L) (lenAgain : s.byte 2 = s.byte 1)
    (start : s.byte 3 = 0x68) (stop : s.byte (L + 5) = 0x16) : IsVariable w L := by
  have byte {k : Nat} (hk : k < L + 6) := readWire_byte read (k := k) (by omega)
  refine ⟨two_le, (readWire_length read).trans wlen, ?_, ?_, (byte (by omega)).trans start,
    (byte (by omega)).trans stop⟩
  · rw [byte (by omega)]; exact len
  · rw [byte (by omega), byte (by omega)]; exact lenAgain

/-- FATAL finds nothing wrong in a variable frame in WIRE, by the premise on its bytes there. -/
theorem IsVariable.accepts {s : State} {w : List Byte} {L : Nat} (form : IsVariable w L) (read : readWire s = some w)
    (policy : s.cfg.csmode = 2 → s.cserrAt (s.byte (L + 4)) 4 L = 0) :
    ¬ ChecksumFatal s.cfg.csmode (byteAt w (L + 4)) (slice w 4 (L + 4)) := by
  have wlen := (readWire_length read).symm.trans form.length
  have accepts := not_checksumFatal_of_cserrAt read (by omega) policy
  rwa [← readWire_byte read (k := L + 4) (by omega), Nat.add_comm 4 L] at accepts

/-- A variable frame in WIRE whose payload is accepted is loaded (R113, R271). -/
theorem exec_variableFrame_of_payload {s : State} {w : List Byte} {L : Nat} {asdu : Option Asdu}
    (read : readWire s = some w) (form : IsVariable w L)
    (policy : s.cfg.csmode = 2 → s.cserrAt (s.byte (L + 4)) 4 L = 0) (payload : decPayload s.par L w = .ok asdu) :
    exec .variableFrame s =
      .next (loadFrame s { frame := .variableFrame (ctl (s.byte 4)) (s.byte 5) (s.byte (L + 4)) asdu, len := s.byte 1,
                           cserr := s.cserrAt (s.byte (L + 4)) 4 L }) := by
  have length := form.length
  have wlen := readWire_length read
  have two_le := form.two_le
  have byte {k : Nat} (hk : k < L + 6) := readWire_byte read (k := k) (by omega)
  have ok := decVariable_of_payload form (form.accepts read policy) payload
  have len : BitVec.ofNat 8 L = s.byte 1 := by rw [← form.len, byte (by omega), BitVec.ofNat_toNat, BitVec.setWidth_eq]
  have cserr := readWire_cserrAt read (s.byte (L + 4)) 4 L (by omega)
  rw [Nat.add_comm 4 L] at cserr
  refine (decodeFrameOp_ok read ((nonEmpty_of_pos (by omega) _ _).trans ok)).trans ?_
  rw [variableResult, byte (by omega), byte (by omega), byte (by omega), len, cserr]

/-- Settles O12: the payload is empty, so there is no ASDU to accept. -/
theorem emptyVariableFrameDecodes : Obligations.EmptyVariableFrameDecodes := by
  intro s eight inWire len lenAgain start stop policy
  have read := readWire_of_le inWire
  have form : IsVariable _ 2 :=
    isVariable_of_wire read (Nat.le_refl 2) (by rw [eight]; rfl) (by rw [len]; rfl) (by rw [lenAgain, len]) start stop
  rw [exec_variableFrame_of_payload read form policy (decPayload_empty _ _)]
  simp only [loadFrame, frameRegs, frameSlots, ctlbyte_ctl, statusOk, len]
  rfl

end Sys2Proof.Machine
end

section
/-! PROOFS. Round trip at the link level (spec/40_link_frames.md R121 to R124): the bytes of an encoded frame, the
abstract frame a decode reads and loads, and decode and encode as inverses of each other. -/

namespace Sys2Proof.Machine

/-! ## Pieces of a byte string -/

theorem slice_cons {w : List Byte} {a b : Nat} (h : a < b) (hw : a < w.length) :
    slice w a b = byteAt w a :: slice w (a + 1) b := by
  obtain ⟨n, rfl⟩ : ∃ n, b = a + n + 1 := ⟨b - a - 1, by omega⟩
  rw [slice, slice, List.drop_eq_getElem_cons hw, show a + n + 1 - a = n + 1 by omega,
    show a + n + 1 - (a + 1) = n by omega, List.take_succ_cons]
  simp [byteAt, hw]

theorem byteAt_append_left {x : List Byte} {i : Nat} (h : i < x.length) (y : List Byte) :
    byteAt (x ++ y) i = byteAt x i := List.getD_append _ _ _ _ h

theorem byteAt_append_right (x y : List Byte) (i : Nat) : byteAt (x ++ y) (x.length + i) = byteAt y i := by
  rw [byteAt, List.getD_append_right _ _ _ _ (Nat.le_add_right _ _), Nat.add_sub_cancel_left]
  rfl

/-! ## The bytes of an encoded frame (R121) -/

/-- The bytes of a fixed frame. -/
def fixedBytes (ctrl laddr cs : Byte) : List Byte := [0x10, ctrl, laddr, cs, 0x16]

/-- The bytes of a variable frame around its body: control byte, link address and payload. -/
def variableBytes (body : List Byte) (cs : Byte) : List Byte :=
  [0x68, BitVec.ofNat 8 body.length, BitVec.ofNat 8 body.length, 0x68] ++ body ++ [cs, 0x16]

@[simp] theorem variableBytes_length (body : List Byte) (cs : Byte) :
    (variableBytes body cs).length = body.length + 6 := by
  simp only [variableBytes, List.length_append, List.length_cons, List.length_nil]; omega

theorem variableBytes_body (body : List Byte) (cs : Byte) {i : Nat} (h : i < body.length) :
    byteAt (variableBytes body cs) (4 + i) = byteAt body i := by
  rw [variableBytes, List.append_assoc]
  exact (byteAt_append_right _ _ i).trans (byteAt_append_left h _)

theorem variableBytes_tail (body : List Byte) (cs : Byte) (i : Nat) :
    byteAt (variableBytes body cs) (body.length + 4 + i) = byteAt [cs, 0x16] i := by
  rw [variableBytes, ← byteAt_append_right _ [cs, 0x16] i, List.length_append, Nat.add_comm body.length]
  rfl

theorem variableBytes_cs (body : List Byte) (cs : Byte) :
    byteAt (variableBytes body cs) (body.length + 4) = cs := variableBytes_tail body cs 0

theorem slice_variableBytes (body : List Byte) (cs : Byte) :
    slice (variableBytes body cs) 4 (body.length + 4) = body := by
  rw [slice, variableBytes, List.append_assoc, Nat.add_sub_cancel]
  exact List.take_left

/-- The encoded variable frame has the form of one (R113, R121). -/
theorem isVariable_variableBytes {body : List Byte} (two_le : 2 ≤ body.length) (le : body.length ≤ 255) (cs : Byte) :
    IsVariable (variableBytes body cs) body.length :=
  ⟨two_le, variableBytes_length body cs, (BitVec.toNat_ofNat _ _).trans (Nat.mod_eq_of_lt (by omega)), rfl, rfl,
    variableBytes_tail body cs 1⟩

/-- The bytes of a variable frame are those around its body. -/
theorem IsVariable.eq_variableBytes {w : List Byte} {L : Nat} (h : IsVariable w L) (first : byteAt w 0 = 0x68) :
    w = variableBytes (slice w 4 (L + 4)) (byteAt w (L + 4)) := by
  obtain ⟨_, length, len, lenAgain, start, stop⟩ := h
  have size : (slice w 4 (L + 4)).length = L := by rw [slice_length]; omega
  refine bytes_ext (by rw [variableBytes_length, size, length]) fun i hi => ?_
  have lenByte : byteAt w 1 = BitVec.ofNat 8 L := by rw [← len, BitVec.ofNat_toNat, BitVec.setWidth_eq]
  rcases Nat.lt_or_ge i 4 with head | rest
  · rw [variableBytes, List.append_assoc, byteAt_append_left head, size]
    match i, head with
    | 0, _ => exact first
    | 1, _ => exact lenByte
    | 2, _ => exact lenAgain.trans lenByte
    | 3, _ => exact start
  obtain ⟨j, rfl⟩ : ∃ j, i = 4 + j := ⟨i - 4, by omega⟩
  rcases Nat.lt_or_ge j L with body | tail
  · rw [variableBytes_body _ _ (by rw [size]; exact body), byteAt_slice w (by omega)]
  obtain ⟨k, rfl⟩ : ∃ k, j = L + k := ⟨j - L, by omega⟩
  rw [show 4 + (L + k) = (slice w 4 (L + 4)).length + 4 + k by rw [size]; omega, variableBytes_tail, size]
  match k, show k < 2 by omega with
  | 0, _ => rfl
  | 1, _ => exact stop

/-! ## The checksum an encode sends (R123) -/

theorem csgen_copy {m : BitVec 2} {cs : Byte} {body : List Byte} (h : ¬ ChecksumFatal m cs body) :
    csgen m 0 cs body = .ok (cs, cscheck m cs body) := by
  rw [csgen, if_neg (by decide)]
  exact if_neg h

/-- What `csgen` answers passes the check under the same policy (R114, R123). -/
theorem csgen_ok {m : BitVec 2} {g : Bit} {cs k : Byte} {c : Bit} {body : List Byte}
    (h : csgen m g cs body = .ok (k, c)) :
    c = cscheck m k body ∧ ¬ ChecksumFatal m k body ∧ (g = 0 → k = cs) ∧ (g = 1 → k = cssum body) := by
  rw [checksumFatal_iff]
  rcases csgen_cases m g cs body with ⟨one, h'⟩ | ⟨_, _, _, h'⟩ | ⟨zero, right, h'⟩ <;> rw [h'] at h <;> cases h
  · refine ⟨by simp [cscheck], fun ⟨_, wrong⟩ => wrong rfl, fun h0 => ?_, fun _ => rfl⟩
    exact absurd (one.symm.trans h0) (by decide)
  · exact ⟨rfl, fun ⟨mode, wrong⟩ => wrong (right mode), fun _ => rfl, fun h1 => absurd h1 zero⟩

theorem csgen_error {m : BitVec 2} {g : Bit} {cs : Byte} {body : List Byte} {e : CodecErr}
    (h : csgen m g cs body = .error e) : m = 2 ∧ e = ⟨.checksumMismatch, 0⟩ := by
  rcases csgen_cases m g cs body with ⟨_, h'⟩ | ⟨_, mode, _, h'⟩ | ⟨_, _, h'⟩ <;> rw [h'] at h <;> cases h
  exact ⟨mode, rfl⟩

/-! ## What `enc_frame` answers (R121) -/

theorem encVariable_of_csgen {cfg : Cfg} {r : Regs} {payload : List Byte} (fits : payload.length ≤ 253) {k : Byte}
    {c : Bit} (made : csgen cfg.csmode cfg.csgen r.cs (r.ctrl :: r.laddr :: payload) = .ok (k, c)) :
    encVariable cfg r payload = .ok (variableBytes (r.ctrl :: r.laddr :: payload) k, c) := by
  rw [encVariable, if_neg (by omega), made]
  rfl

theorem encVariable_ok {cfg : Cfg} {r : Regs} {payload b : List Byte} {c : Bit}
    (h : encVariable cfg r payload = .ok (b, c)) :
    ∃ k, payload.length ≤ 253 ∧ csgen cfg.csmode cfg.csgen r.cs (r.ctrl :: r.laddr :: payload) = .ok (k, c) ∧
      b = variableBytes (r.ctrl :: r.laddr :: payload) k := by
  unfold encVariable at h
  split at h
  · cases h
  · split at h <;> cases h
    exact ⟨_, by omega, by assumption, rfl⟩

theorem encFrame_fixed_of_csgen {p : Params} {cfg : Cfg} {r : Regs} (hk : r.kind = 2) {k : Byte} {c : Bit}
    (made : csgen cfg.csmode cfg.csgen r.cs [r.ctrl, r.laddr] = .ok (k, c)) (v : Vector Slot Config.nslot) :
    encFrame p cfg r v = .ok (fixedBytes r.ctrl r.laddr k, c) := by
  rw [encFrame_fixed hk, made]
  rfl

/-- What `enc_frame` sends, by KIND (R121). -/
theorem encFrame_ok {p : Params} {cfg : Cfg} {r : Regs} {v : Vector Slot Config.nslot} {b : List Byte} {c : Bit}
    (h : encFrame p cfg r v = .ok (b, c)) :
    (r.kind = 1 ∧ b = [singleByte r.sc] ∧ c = 0) ∨
    (r.kind = 2 ∧ ∃ k, csgen cfg.csmode cfg.csgen r.cs [r.ctrl, r.laddr] = .ok (k, c) ∧
      b = fixedBytes r.ctrl r.laddr k) ∨
    (r.kind = 3 ∧ r.hasasdu ≠ 1 ∧ encVariable cfg r [] = .ok (b, c)) ∨
    (r.kind = 3 ∧ r.hasasdu = 1 ∧ ∃ payload, encAsdu p r v = .ok payload ∧ encVariable cfg r payload = .ok (b, c)) := by
  have kind {n : Nat} {k : BitVec 3} (hn : r.kind.toNat = n) (hk : k.toNat = n) : r.kind = k :=
    BitVec.eq_of_toNat_eq (hn.trans hk.symm)
  unfold encFrame at h
  split at h
  case h_1 hk => cases h; exact .inl ⟨kind hk rfl, rfl, rfl⟩
  case h_2 hk =>
    split at h <;> cases h
    exact .inr (.inl ⟨kind hk rfl, _, by assumption, rfl⟩)
  case h_3 hk =>
    split at h
    · split at h
      · cases h
      · exact .inr (.inr (.inr ⟨kind hk rfl, by assumption, _, by assumption, h⟩))
    · exact .inr (.inr (.inl ⟨kind hk rfl, by assumption, h⟩))
  case h_4 => cases h

/-! ## What `dec_frame` accepts (R116) -/

theorem decFrame_single (p : Params) (m : BitVec 2) (neg : Bit) :
    decFrame p m [singleByte neg] = .ok { frame := .singleChar neg, len := 0, cserr := 0 } := by
  rcases BitVec.eq_zero_or_eq_one neg with rfl | rfl <;> rfl

/-- All that `dec_frame` accepts, by its first byte (R110 to R113, R116). -/
theorem decFrame_ok {p : Params} {m : BitVec 2} {w : List Byte} {x : FrameResult} (h : decFrame p m w = .ok x) :
    (∃ neg, w = [singleByte neg] ∧ x = { frame := .singleChar neg, len := 0, cserr := 0 }) ∨
    (byteAt w 0 = 0x10 ∧ decFixed m w = .ok x) ∨ (byteAt w 0 = 0x68 ∧ decVariable p m w = .ok x) := by
  have single {b : Byte} {rest : List Byte} {neg : Bit} (start : b = singleByte neg)
      (h : decSingle neg (b :: rest) = .ok x) :
      ∃ neg, b :: rest = [singleByte neg] ∧ x = { frame := .singleChar neg, len := 0, cserr := 0 } := by
    unfold decSingle at h
    split at h <;> cases h
    have nil : rest = [] := by rename_i short; simpa using short
    exact ⟨neg, by rw [start, nil], rfl⟩
  cases decoded : decodeLink w with
  | error e => rw [decFrame, decoded] at h; cases h
  | ok i =>
    rw [decFrame_of_decodeLink decoded] at h
    obtain ⟨level, rest, rfl⟩ := decodeLink_ok decoded
    cases i <;> cases level
    case ok.ack.refl => exact .inl (single (neg := 0) rfl h)
    case ok.nack.refl => exact .inl (single (neg := 1) rfl h)
    case ok.fixedFrame.refl => exact .inr (.inl ⟨rfl, h⟩)
    case ok.variableFrame.refl => exact .inr (.inr ⟨rfl, h⟩)

theorem decFrame_fixedBytes {m : BitVec 2} {ctrl laddr k : Byte} (accepts : ¬ ChecksumFatal m k [ctrl, laddr])
    (p : Params) :
    decFrame p m (fixedBytes ctrl laddr k) =
      .ok { frame := .fixed (ctl ctrl) laddr k, len := 0, cserr := cscheck m k [ctrl, laddr] } :=
  (decFrame_of_decodeLink (i := .fixedFrame) rfl p m).trans
    (decFixed_ok_iff.mpr ⟨⟨rfl, rfl⟩, accepts, rfl⟩ : decFixed m (fixedBytes ctrl laddr k) = _)

theorem decFrame_variableBytes {p : Params} {m : BitVec 2} {ctrl laddr k : Byte} {payload : List Byte}
    {asdu : Option Asdu} (fits : payload.length ≤ 253) (accepts : ¬ ChecksumFatal m k (ctrl :: laddr :: payload))
    (read : decPayload p (payload.length + 2) (variableBytes (ctrl :: laddr :: payload) k) = .ok asdu) :
    decFrame p m (variableBytes (ctrl :: laddr :: payload) k) =
      .ok { frame := .variableFrame (ctl ctrl) laddr k asdu, len := BitVec.ofNat 8 (payload.length + 2),
            cserr := cscheck m k (ctrl :: laddr :: payload) } := by
  have form := isVariable_variableBytes (body := ctrl :: laddr :: payload) (Nat.le_add_left 2 _)
    (by simp only [List.length_cons]; omega) k
  have cs := variableBytes_cs (ctrl :: laddr :: payload) k
  have body := slice_variableBytes (ctrl :: laddr :: payload) k
  have ok := decVariable_of_payload form (by rw [cs, body]; exact accepts) read
  rw [variableResult, cs, body] at ok
  exact (decFrame_of_decodeLink (i := .variableFrame) rfl p m).trans ok

/-! ## The frame a decode reads, loaded and viewed (R34, R271) -/

section
variable {p : Params} {r : Regs} {v : Vector Slot Config.nslot}

theorem view_single (hk : r.kind = 1) : view p r v = some (.frame (.singleChar r.sc)) := by
  unfold view; rw [hk]; rfl

theorem view_fixed (hk : r.kind = 2) : view p r v = some (.frame (.fixed (ctl r.ctrl) r.laddr r.cs)) := by
  unfold view; rw [hk]; rfl

theorem view_variable (hk : r.kind = 3) (ha : r.hasasdu ≠ 1) :
    view p r v = some (.frame (.variableFrame (ctl r.ctrl) r.laddr r.cs none)) := by
  unfold view
  rw [show r.kind.toNat = 3 by rw [hk]; rfl]
  exact if_neg ha

theorem view_asdu (hk : r.kind = 3) (ha : r.hasasdu = 1) {d : Asdu} (hd : viewAsdu p r v = some d) :
    view p r v = some (.frame (.variableFrame (ctl r.ctrl) r.laddr r.cs (some d))) := by
  unfold view
  rw [show r.kind.toNat = 3 by rw [hk]; rfl, hd]
  exact if_pos ha

end

/-- The view of a loaded frame is the frame that was decoded (R34, R271). -/
theorem view_of_decFrame {p : Params} (hp : p.valid = true) {m : BitVec 2} {w : List Byte} {x : FrameResult}
    (h : decFrame p m w = .ok x) (v : Vector Slot Config.nslot) :
    view p (frameRegs x.frame x.len) (frameSlots v x.frame) = some (.frame x.frame) := by
  rcases decFrame_ok h with ⟨neg, _, rfl⟩ | ⟨_, ok⟩ | ⟨_, ok⟩
  · exact view_single rfl
  · obtain ⟨_, _, rfl⟩ := decFixed_ok_iff.mp ok
    exact (view_fixed rfl).trans (by simp only [fixedResult, frameRegs, ctlbyte_ctl])
  · obtain ⟨L, asdu, _, _, payload, rfl⟩ := decVariable_ok ok
    rcases decPayload_ok payload with ⟨_, rfl⟩ | ⟨_, d, decoded, rfl⟩
    · refine (view_variable rfl (show (0 : Bit) ≠ 1 by decide)).trans ?_
      simp only [variableResult, frameRegs, ctlbyte_ctl]
    · refine (view_asdu rfl rfl (viewAsdu_of_decAsdu hp decoded _ v)).trans ?_
      simp only [variableResult, asduRegs, ctlbyte_ctl]

theorem IsFixed.body {w : List Byte} (h : IsFixed w) : slice w 1 3 = [byteAt w 1, byteAt w 2] := by
  have length := h.length
  rw [slice_cons (by omega) (by omega), slice_cons (by omega) (by omega), slice, Nat.sub_self, List.take_zero]

theorem IsFixed.eq_fixedBytes {w : List Byte} (h : IsFixed w) (first : byteAt w 0 = 0x10) :
    w = fixedBytes (byteAt w 1) (byteAt w 2) (byteAt w 3) := by
  refine bytes_ext h.length fun i hi => ?_
  match i, h.length ▸ hi with
  | 0, _ => exact first
  | 1, _ | 2, _ | 3, _ => rfl
  | 4, _ => exact h.stop

theorem encode_fixed_of_csgen {p : Params} {cfg : Cfg} {c : Control} {addr cs k : Byte} {cserr : Bit}
    (made : csgen cfg.csmode cfg.csgen cs [ctlbyte c, addr] = .ok (k, cserr)) :
    (Record.frame (.fixed c addr cs)).encode p cfg = .ok (fixedBytes (ctlbyte c) addr k, cserr) := by
  simp only [Record.encode, made]
  rfl

theorem encVariable_of_isVariable {m : BitVec 2} {w : List Byte} {L : Nat} (form : IsVariable w L)
    (first : byteAt w 0 = 0x68) (accepts : ¬ ChecksumFatal m (byteAt w (L + 4)) (slice w 4 (L + 4))) :
    encVariable { csmode := m, csgen := 0 } (linkRegs (ctl (byteAt w 4)) (byteAt w 5) (byteAt w (L + 4)))
      (slice w 6 (L + 4)) = .ok (w, cscheck m (byteAt w (L + 4)) (slice w 4 (L + 4))) := by
  obtain ⟨two_le, length, len, _⟩ := id form
  have le : L < 256 := len ▸ (byteAt w 1).isLt
  have body : byteAt w 4 :: byteAt w 5 :: slice w 6 (L + 4) = slice w 4 (L + 4) := by
    rw [slice_cons (a := 4) (by omega) (by omega), slice_cons (a := 5) (by omega) (by omega)]
  have made := csgen_copy accepts
  rw [← body] at made
  refine (encVariable_of_csgen ?fits (by simp only [linkRegs, ctlbyte_ctl]; exact made)).trans ?bytes
  case fits => rw [slice_length]; omega
  case bytes => simp only [linkRegs, ctlbyte_ctl, body, ← form.eq_variableBytes first]

/-- A decoded frame is sent as the bytes it came from, with the CSERR it was read with (R124). -/
theorem encode_of_decFrame {p : Params} (hp : p.valid = true) {m : BitVec 2} {w : List Byte} {x : FrameResult}
    (h : decFrame p m w = .ok x) :
    (Record.frame x.frame).encode p { csmode := m, csgen := 0 } = .ok (w, x.cserr) := by
  rcases decFrame_ok h with ⟨neg, rfl, rfl⟩ | ⟨first, ok⟩ | ⟨first, ok⟩
  · rfl
  · obtain ⟨form, accepts, rfl⟩ := decFixed_ok_iff.mp ok
    have sent := encode_fixed_of_csgen (p := p) (cfg := { csmode := m, csgen := 0 }) (c := ctl (byteAt w 1))
      (by rw [ctlbyte_ctl, ← form.body]; exact csgen_copy accepts)
    rw [ctlbyte_ctl, ← form.eq_fixedBytes first] at sent
    exact sent
  · obtain ⟨L, asdu, form, accepts, payload, rfl⟩ := decVariable_ok ok
    have sent := encVariable_of_isVariable form first accepts
    rcases decPayload_ok payload with ⟨rfl, rfl⟩ | ⟨_, d, decoded, rfl⟩
    · exact sent
    · simp only [variableResult, Record.encode, encode_of_decAsdu hp decoded]
      exact sent

/-! ## What `enc_frame` sends, decoded (R124) -/

theorem decPayload_of_encAsdu {p : Params} (hp : p.valid = true) {r : Regs} {v : Vector Slot Config.nslot}
    {payload : List Byte} (h : encAsdu p r v = .ok payload) (ctrl laddr k : Byte) :
    ∃ d, decPayload p (payload.length + 2) (variableBytes (ctrl :: laddr :: payload) k) = .ok (some d) ∧
      viewAsdu p r v = some d := by
  obtain ⟨d, decoded, viewed⟩ := decAsdu_of_encAsdu hp h 6
  obtain ⟨_, _, _, _, bytes⟩ := encAsdu_ok h
  have body : slice (variableBytes (ctrl :: laddr :: payload) k) 4 (payload.length + 2 + 4) =
      ctrl :: laddr :: payload := slice_variableBytes _ k
  have region : slice (variableBytes (ctrl :: laddr :: payload) k) 6 (payload.length + 2 + 4) = payload := by
    rw [slice_cons (by omega) (by simp), slice_cons (by omega) (by simp)] at body
    simp only [List.cons.injEq] at body
    exact body.2.2
  have nonempty : payload.length + 2 ≠ 2 := by rw [bytes]; simp
  exact ⟨d, decPayload_asdu nonempty (by rw [region]; exact decoded), viewed⟩

/-- Where the checksum byte and the bytes it covers stand in a variable frame (R114). -/
theorem variableBytes_checksum {body : List Byte} {k : Byte} (h : k = cssum body) :
    k = byteAt (variableBytes body k) ((variableBytes body k).length - 2) ∧
      k = cssum (slice (variableBytes body k) 4 ((variableBytes body k).length - 2)) := by
  rw [variableBytes_length, show body.length + 6 - 2 = body.length + 4 by omega, variableBytes_cs,
    slice_variableBytes]
  exact ⟨rfl, h⟩

/-- What `enc_frame` sends is decoded under the same policy to the view of the record it was sent from, but for the
checksum byte k that was sent: REC.CS, or with CSGEN = 1 the computed sum (R124). -/
theorem decFrame_of_encFrame {p : Params} (hp : p.valid = true) {cfg : Cfg} {r : Regs} {v : Vector Slot Config.nslot}
    {b : List Byte} {c : Bit} (h : encFrame p cfg r v = .ok (b, c)) :
    ∃ x k, decFrame p cfg.csmode b = .ok x ∧ x.cserr = c ∧ view p { r with cs := k } v = some (.frame x.frame) ∧
      (cfg.csgen = 0 → k = r.cs) ∧
      (cfg.csgen = 1 → 1 < b.length → k = byteAt b (b.length - 2) ∧
        k = if r.kind = 2 then cssum (slice b 1 3) else cssum (slice b 4 (b.length - 2))) := by
  rcases encFrame_ok h with ⟨hk, rfl, rfl⟩ | ⟨hk, k, made, rfl⟩ | ⟨hk, ha, sent⟩ | ⟨hk, ha, payload, asdu, sent⟩
  case inl =>
    exact ⟨_, r.cs, decFrame_single p _ _, rfl, view_single hk, fun _ => rfl, fun _ long => absurd long (by simp)⟩
  case inr.inl =>
    obtain ⟨rfl, accepts, copied, computed⟩ := csgen_ok made
    refine ⟨_, k, decFrame_fixedBytes accepts p, rfl, view_fixed hk, copied, fun gen _ => ⟨rfl, ?_⟩⟩
    rw [if_pos hk]
    exact computed gen
  case inr.inr.inl =>
    obtain ⟨k, fits, made, rfl⟩ := encVariable_ok sent
    obtain ⟨rfl, accepts, copied, computed⟩ := csgen_ok made
    refine ⟨_, k, decFrame_variableBytes fits accepts (decPayload_empty p _), rfl, view_variable hk ha, copied,
      fun gen _ => ?_⟩
    rw [if_neg (by rw [hk]; decide)]
    exact variableBytes_checksum (computed gen)
  case inr.inr.inr =>
    obtain ⟨k, fits, made, rfl⟩ := encVariable_ok sent
    obtain ⟨rfl, accepts, copied, computed⟩ := csgen_ok made
    obtain ⟨d, read, viewed⟩ := decPayload_of_encAsdu hp asdu r.ctrl r.laddr k
    have sent : view p { r with cs := k } v = _ := view_asdu (r := { r with cs := k }) hk ha viewed
    refine ⟨_, k, decFrame_variableBytes fits accepts read, rfl, sent, copied, fun gen _ => ?_⟩
    rw [if_neg (by rw [hk]; decide)]
    exact variableBytes_checksum (computed gen)

/-- Settles O50: a decoded frame, loaded, has that frame as its view, from which the encode sends its bytes; and what an
encode sends is decoded to the view it was sent from. -/
theorem frameRoundTrip : Obligations.FrameRoundTrip := by
  intro p hp
  refine ⟨fun m w x v h => ?decoded, fun cfg r v v' b c h => ?encoded⟩
  case decoded => exact (encFrame_eq_encode_view (view_of_decFrame hp h v)).trans (encode_of_decFrame hp h)
  case encoded =>
    obtain ⟨x, k, decoded, cserr, viewed, copied, computed⟩ := decFrame_of_encFrame hp h
    have loaded := (view_of_decFrame hp decoded v').trans viewed.symm
    refine ⟨x, decoded, cserr, fun gen => ?_, fun gen => ⟨k, loaded, computed gen⟩⟩
    rw [loaded, copied gen]

end Sys2Proof.Machine
end

section
/-! PROOFS. Decodes of frames in WIRE (spec/40_link_frames.md R113 to R119; spec/60_exceptions.md R293, R294, R302): the
ASDU of a variable frame, DEC_FRAME by the first byte, REC.LEN, and the errors of an ASDU's size and of a checksum. -/

namespace Sys2Proof.Machine

/-! ## The ASDU of a variable frame in WIRE (R117) -/

theorem IsVariable.payload_length {w : List Byte} {L : Nat} (form : IsVariable w L) :
    (slice w 6 (L + 4)).length = L - 2 := by
  have length := form.length
  rw [slice_length]; omega

theorem payload_byte {s : State} {w : List Byte} {L : Nat} (read : readWire s = some w) (form : IsVariable w L)
    {i : Nat} (hi : i < L - 2) : byteAt (slice w 6 (L + 4)) i = s.byte (6 + i) := by
  have length := form.length
  have wlen := readWire_length read
  rw [byteAt_slice w (by omega), readWire_byte read (by omega)]

/-- The payload's decode is that of the type its first byte names (R117, R184). -/
theorem decAsdu_payload {s : State} {w : List Byte} {L : Nat} (hp : s.par.valid = true) (read : readWire s = some w)
    (form : IsVariable w L) (h : 6 ≤ L) :
    decAsdu s.par 6 (slice w 6 (L + 4)) =
      decTyped s.par (s.byte 6) (vsqSq (s.byte 7)) (vsqNum (s.byte 7)) 6 (slice w 6 (L + 4)) := by
  rw [decAsdu_eq_decTyped hp, payload_byte read form (by omega), payload_byte read form (by omega)]

/-- A buffer that a length byte accounts for fits in WIRE (R6). -/
theorem wlen_le_bufsz_of_len {s : State} {L : Nat} (hp : s.par.valid = true) (len : (s.byte 1).toNat = L)
    (wlen : s.wlen.toNat = L + 6) : s.wlen.toNat ≤ s.par.bufsz := by
  have := (Params.valid_bufsz hp).1
  have := (s.byte 1).isLt
  omega

/-- Settles O13: the payload is exactly the ASDU its header implies, so the frame is accepted and its ASDU loaded. -/
theorem variableFrameDecodes : Obligations.VariableFrameDecodes := by
  intro s row L hp found hn legal size wlen len lenAgain start stop policy
  have read := readWire_of_le (wlen_le_bufsz_of_len hp len wlen)
  have form := isVariable_of_wire read (by omega) wlen len lenAgain start stop
  have region (i : Nat) := payload_byte read form (i := i)
  rw [← objsSize_eq_listBytes] at size
  have length : _ = 4 + objsSize (s.par.gsize row) (vsqSq (s.byte 7)) (vsqNum (s.byte 7)) :=
    form.payload_length.trans (by omega)
  have accepted := decTyped_of_size found hn legal length 6
  rw [← decAsdu_payload hp read form (by omega), region 2 (by omega), region 3 (by omega)] at accepted
  have run := exec_variableFrame_of_payload read form policy (decPayload_asdu (by omega) accepted)
  refine ⟨_, run, (loadFrame_keeps s _).1, rfl, ?regs, ?objects, rfl⟩
  case regs =>
    simp only [loadFrame_regs, frameRegs, asduRegs, ctlbyte_ctl, mkVsq_vsqSq_vsqNum, mkCotb_fields]
    rfl
  case objects =>
    exact objects_loaded (fun i hi => region i (form.payload_length ▸ hi)) length rfl rfl rfl

/-! ## REC.LEN (R119) -/

/-- An accepted ASDU has the size its own header implies, whatever the parameters. -/
theorem decAsdu_ok_size {p : Params} {a : Nat} {w : List Byte} {d : Asdu} (h : decAsdu p a w = .ok d) :
    ∃ g, p.gsizeOf d.ti = some g ∧ w.length = 4 + listBytes g d.sq d.num.toNat := by
  rcases decAsdu_cases p a w with ⟨e, he, _⟩ | ⟨_, _, _, typed⟩
  · rw [he] at h; cases h
  · obtain ⟨row, found, _, _, size, rfl⟩ := decTyped_ok (typed ▸ h)
    exact ⟨p.gsize row, by rw [Params.gsizeOf, found, Option.map_some], size⟩

/-- Settles O14: a variable frame's length byte is 2 plus the length of its payload, which is that of the accepted ASDU;
the other frames have no length byte. -/
theorem lenIsTwoPlusAsdu : Obligations.LenIsTwoPlusAsdu := by
  intro s t run done
  rw [exec_decFrame] at run
  obtain ⟨w, read, ⟨x, ok, rfl⟩ | ⟨e, _, rfl⟩⟩ := decodeFrameOp_next run
  case inr => exact absurd done (by simp)
  simp only [loadFrame_regs]
  rcases decFrame_ok ok with ⟨neg, _, rfl⟩ | ⟨_, accepted⟩ | ⟨_, accepted⟩
  · exact rfl
  · obtain ⟨_, _, rfl⟩ := decFixed_ok_iff.mp accepted
    exact rfl
  obtain ⟨L, asdu, form, _, payload, rfl⟩ := decVariable_ok accepted
  have length := form.length
  have two_le := form.two_le
  have len : byteAt w 1 = s.byte 1 := readWire_byteAt read (by omega)
  have lenByte : BitVec.ofNat 8 L = s.byte 1 := by rw [← form.len, BitVec.ofNat_toNat, BitVec.setWidth_eq, len]
  have lenNat : (s.byte 1).toNat = L := len ▸ form.len
  rcases decPayload_ok payload with ⟨empty, rfl⟩ | ⟨_, d, decoded, rfl⟩ <;> refine (if_pos rfl).mpr ?_
  · exact ⟨lenByte, fun _ => (congrArg BitVec.toNat lenByte).trans (lenNat.trans empty),
      fun has => absurd has (show ¬ (0 : Bit) = 1 by decide)⟩
  · obtain ⟨g, known, size⟩ := decAsdu_ok_size decoded
    refine ⟨lenByte, fun has => absurd has (show ¬ (1 : Bit) = 0 by decide), fun _ => ⟨g, known, ?_⟩⟩
    change (BitVec.ofNat 8 L).toNat = 2 + 4 + listBytes g (vsqSq (mkVsq d.sq d.num)) (vsqNum (mkVsq d.sq d.num)).toNat
    rw [form.payload_length] at size
    rw [vsqSq_mkVsq, vsqNum_mkVsq, lenByte, lenNat]
    omega

/-! ## DEC_FRAME by the first byte (R116) -/

/-- The byte at offset 0 of WIRE is all that the dispatch reads. -/
theorem decodeLink_of_first {s : State} {w : List Byte} {i : Instr} (read : readWire s = some w)
    (pos : 0 < s.wlen.toNat) (h : decodeLink [s.byte 0] = .ok i) : decodeLink w = .ok i := by
  rw [← readWire_byte read pos] at h
  cases w with
  | nil => rw [← readWire_length read] at pos; exact absurd pos (Nat.lt_irrefl 0)
  | cons b rest => exact h

/-- DEC_FRAME runs the row that the byte at offset 0 of WIRE selects. -/
theorem exec_decFrame_of_first {s : State} {i : Instr} (inWire : s.wlen.toNat ≤ s.par.bufsz) (pos : 0 < s.wlen.toNat)
    (h : decodeLink [s.byte 0] = .ok i) : exec .decFrame s = exec i (s.setCmd 0) :=
  have read := readWire_of_le inWire
  exec_decFrame_of_decodeLink read (decodeLink_of_first read pos h)

/-- Settles O21: the first byte selects the row, and what the row does is known. -/
theorem decFrameDecodes : Obligations.DecFrameDecodes := by
  intro s inWire
  refine ⟨fun one first => ?ack, fun one first => ?nack, fun five first stop policy => ?fixed⟩
  case ack =>
    rw [exec_decFrame_of_first inWire (by rw [one]; decide) (by rw [first]; rfl)]
    exact (singleCharacterDecodes (s.setCmd 0) one inWire).1
  case nack =>
    rw [exec_decFrame_of_first inWire (by rw [one]; decide) (by rw [first]; rfl)]
    exact (singleCharacterDecodes (s.setCmd 0) one inWire).2
  case fixed =>
    rw [exec_decFrame_of_first inWire (by rw [five]; decide) (by rw [first]; rfl)]
    exact fixedFrameDecodes (s.setCmd 0) five inWire stop policy

/-! ## How a decode fails -/

/-- A failed decode leaves the state that R300 gives for its error. -/
theorem failDecode_setCmd (s : State) (op : BitVec 2) (e : CodecErr) :
    failDecode (s.setCmd op) e = { s with
      cmd := op
      regs := Regs.zero
      status := { st := 2, err := e.kind.code, cserr := if e.kind.code = 8 then 1 else 0,
                  errpos := BitVec.ofNat 12 e.pos } } := by
  obtain ⟨_, _, mismatch⟩ := e.kind.code_bounds
  simp only [failDecode, State.setRegs, State.setStatus, State.setCmd, statusErr, mismatch]

theorem failEncode_setCmd (s : State) (op : BitVec 2) (e : ErrKind) :
    failEncode (s.setCmd op) e = { s with
      cmd := op
      wlen := 0
      status := { st := 2, err := e.code, cserr := if e.code = 8 then 1 else 0, errpos := 0 } } := by
  obtain ⟨_, _, mismatch⟩ := e.code_bounds
  simp only [failEncode, State.setWlen, State.setStatus, State.setCmd, statusErr, mismatch]
  rfl

theorem failsDecode_of_decFrame {s : State} {w : List Byte} {e : CodecErr} (read : readWire s = some w)
    (h : decFrame s.par s.cfg.csmode w = .error e) : FailsDecode .decFrame s 0 e.kind.code e.pos := by
  rw [FailsDecode, exec_decFrame, ← failDecode_setCmd]
  exact decodeFrameOp_error (s := s.setCmd 0) read h

theorem failsDecode_of_decAsdu {s : State} {w : List Byte} {e : CodecErr} (read : readWire s = some w)
    (h : decAsdu s.par 0 w = .error e) : FailsDecode .decAsdu s 2 e.kind.code e.pos := by
  rw [FailsDecode, exec_decAsdu, ← failDecode_setCmd]
  exact decodeAsduOp_error (s := s.setCmd 2) read h

theorem failsEncode_of_encFrame {s : State} {e : CodecErr} (h : encFrame s.par s.cfg s.regs s.slots = .error e) :
    FailsEncode .encFrame s 1 e.kind.code := by
  rw [FailsEncode, exec_encFrame, ← failEncode_setCmd, h]
  rfl

/-- An error of the row that the byte at offset 0 selects is an error of DEC_FRAME (R116). -/
theorem failsDecode_of_first {s : State} {w : List Byte} {i : Instr} {e : CodecErr} (read : readWire s = some w)
    (pos : 0 < s.wlen.toNat) (first : decodeLink [s.byte 0] = .ok i)
    (h : decLinkInstr s.par i s.cfg.csmode w = .error e) : FailsDecode .decFrame s 0 e.kind.code e.pos :=
  failsDecode_of_decFrame read ((decFrame_of_decodeLink (decodeLink_of_first read pos first) _ _).trans h)

/-! ## The size of an ASDU (R293 d, R294) -/

/-- DEC_ASDU on fewer or more bytes than a legal header implies. -/
theorem failsDecode_bare_size {s : State} {w : List Byte} {row : Row} (hp : s.par.valid = true)
    (read : readWire s = some w) (long : 4 ≤ s.wlen.toNat) (found : s.par.lookup (s.byte 0) = some row)
    (hn : vsqNum (s.byte 1) ≠ 0) (legal : vsqSq (s.byte 1) = 1 → row.seqLegal = true) :
    (s.wlen.toNat < 4 + objsSize (s.par.gsize row) (vsqSq (s.byte 1)) (vsqNum (s.byte 1)) →
      FailsDecode .decAsdu s 2 3 s.wlen.toNat) ∧
    (4 + objsSize (s.par.gsize row) (vsqSq (s.byte 1)) (vsqNum (s.byte 1)) < s.wlen.toNat →
      FailsDecode .decAsdu s 2 2 (4 + objsSize (s.par.gsize row) (vsqSq (s.byte 1)) (vsqNum (s.byte 1)))) := by
  have length := readWire_length read
  have typed := decAsdu_eq_decTyped hp 0 w
  rw [readWire_byte read (by omega), readWire_byte read (by omega)] at typed
  constructor
  · intro missing
    have error := typed.trans (decTyped_of_missing found hn legal (by omega) 0)
    rw [length, Nat.zero_add] at error
    exact failsDecode_of_decAsdu read error
  · intro excess
    have error := typed.trans (decTyped_of_excess found hn legal (by omega) 0)
    rw [Nat.zero_add] at error
    exact failsDecode_of_decAsdu read error

/-- An error of the payload is an error of DEC_FRAME, unless FATAL finds a wrong checksum first (R113, R297). -/
theorem failsDecode_of_payload {s : State} {w : List Byte} {L : Nat} {e : CodecErr} (read : readWire s = some w)
    (form : IsVariable w L) (first : s.byte 0 = 0x68) (policy : s.cfg.csmode = 2 → s.cserrAt (s.byte (L + 4)) 4 L = 0)
    (ne : L ≠ 2) (h : decAsdu s.par 6 (slice w 6 (L + 4)) = .error e) :
    FailsDecode .decFrame s 0 e.kind.code e.pos := by
  have wlen := (readWire_length read).symm.trans form.length
  exact failsDecode_of_first (i := .variableFrame) read (by omega) (by rw [first]; rfl)
    (decVariable_of_payload_error form (form.accepts read policy) (decPayload_error ne h))

/-- DEC_FRAME on a payload of fewer or more bytes than its legal header implies. -/
theorem failsDecode_payload_size {s : State} {w : List Byte} {L : Nat} {row : Row} (hp : s.par.valid = true)
    (read : readWire s = some w) (form : IsVariable w L) (first : s.byte 0 = 0x68)
    (policy : s.cfg.csmode = 2 → s.cserrAt (s.byte (L + 4)) 4 L = 0) (long : 6 ≤ L)
    (found : s.par.lookup (s.byte 6) = some row) (hn : vsqNum (s.byte 7) ≠ 0)
    (legal : vsqSq (s.byte 7) = 1 → row.seqLegal = true) :
    (L - 2 < 4 + objsSize (s.par.gsize row) (vsqSq (s.byte 7)) (vsqNum (s.byte 7)) →
      FailsDecode .decFrame s 0 3 (L + 4)) ∧
    (4 + objsSize (s.par.gsize row) (vsqSq (s.byte 7)) (vsqNum (s.byte 7)) < L - 2 →
      FailsDecode .decFrame s 0 2 (6 + (4 + objsSize (s.par.gsize row) (vsqSq (s.byte 7)) (vsqNum (s.byte 7))))) := by
  have length := form.payload_length
  have typed := decAsdu_payload hp read form long
  constructor
  · intro missing
    have error := typed.trans (decTyped_of_missing found hn legal (by omega) 6)
    rw [length, show 6 + (L - 2) = L + 4 by omega] at error
    exact failsDecode_of_payload read form first policy (by omega) error
  · intro excess
    have error := typed.trans (decTyped_of_excess found hn legal (by omega) 6)
    rw [Nat.add_assoc 6 4] at error
    exact failsDecode_of_payload read form first policy (by omega) error

/-- Settles O32: the region is too short for a header, or shorter or longer than its header implies. -/
theorem asduSizeErrors : Obligations.AsduSizeErrors := by
  refine ⟨fun s hp inWire => ⟨fun short => ?bareShort, ?bareSize⟩,
    fun s L hp len wlen first lenAgain start stop policy => ⟨fun low high => ?payloadShort, ?payloadSize⟩⟩
  case bareShort =>
    have read := readWire_of_le inWire
    have length := readWire_length read
    have error := (decAsdu_eq_decTyped hp 0 _).trans (decTyped_of_short (length ▸ short) 0)
    rw [length, Nat.zero_add] at error
    exact failsDecode_of_decAsdu read error
  case bareSize =>
    rintro row size long found hn legal rfl
    exact failsDecode_bare_size hp (readWire_of_le inWire) long found hn legal
  case payloadShort =>
    have read := readWire_of_le (wlen_le_bufsz_of_len hp len wlen)
    have form := isVariable_of_wire read (by omega) wlen len lenAgain start stop
    have length := form.payload_length
    have error := (decAsdu_eq_decTyped hp 6 _).trans (decTyped_of_short (length.trans_lt (by omega)) 6)
    rw [length, show 6 + (L - 2) = L + 4 by omega] at error
    exact failsDecode_of_payload read form first policy (by omega) error
  case payloadSize =>
    rintro row size long found hn legal rfl
    have read := readWire_of_le (wlen_le_bufsz_of_len hp len wlen)
    have form := isVariable_of_wire read (by omega) wlen len lenAgain start stop
    exact failsDecode_payload_size hp read form first policy long found hn legal

/-! ## Checksums (R302) -/

/-- The sum over two bytes. -/
theorem cssum_pair (x y : Byte) : cssum [x, y] = x + y := by
  simp only [cssum]
  rw [show (0 : Byte) = 0#8 from rfl, BitVec.add_zero]

/-- The code of ChecksumMismatch is that error's alone (R290). -/
theorem statusErr_err_ne {e : ErrKind} (h : e ≠ .checksumMismatch) (p : Nat) : (statusErr e p).err ≠ 8 := by
  obtain ⟨_, _, mismatch⟩ := e.code_bounds
  exact fun code => h (mismatch.mpr code)

theorem decTyped_error_ne {p : Params} {ti : Byte} {sq : Bit} {num : BitVec 7} {a : Nat} {w : List Byte}
    {e : CodecErr} (h : decTyped p ti sq num a w = .error e) : e.kind ≠ .checksumMismatch := by
  unfold decTyped at h
  repeat' split at h
  all_goals cases h
  all_goals exact ErrKind.noConfusion

theorem decAsduInstr_error_ne {p : Params} {i : Instr} {a : Nat} {w : List Byte} {e : CodecErr}
    (h : decAsduInstr p i a w = .error e) : e.kind ≠ .checksumMismatch := by
  cases word : i.asduWord with
  | none =>
    rw [decAsduInstr_of_no_word word] at h
    cases h
    exact ErrKind.noConfusion
  | some word' => exact decTyped_error_ne (decAsduInstr_of_word word p a w ▸ h)

theorem decAsdu_error_ne {p : Params} {a : Nat} {w : List Byte} {e : CodecErr} (h : decAsdu p a w = .error e) :
    e.kind ≠ .checksumMismatch := by
  unfold decAsdu at h
  repeat' split at h
  case h_2 => exact decAsduInstr_error_ne h
  case h_1 reject _ => cases h; cases reject <;> exact ErrKind.noConfusion
  all_goals cases h; exact ErrKind.noConfusion

theorem decPayload_error_ne {p : Params} {L : Nat} {w : List Byte} {e : CodecErr}
    (h : decPayload p L w = .error e) : e.kind ≠ .checksumMismatch := by
  unfold decPayload at h
  repeat' split at h
  all_goals cases h
  exact decAsdu_error_ne (by assumption)

section
variable {m : BitVec 2} (hm : m ≠ csFatal)
include hm

theorem decFixed_error_ne {w : List Byte} {e : CodecErr} (h : decFixed m w = .error e) :
    e.kind ≠ .checksumMismatch := by
  unfold decFixed at h
  repeat' split at h
  case isFalse.isFalse.isFalse.isTrue fatal => exact absurd fatal.1 hm
  all_goals cases h
  all_goals exact ErrKind.noConfusion

theorem decVariableBody_error_ne {p : Params} {L : Nat} {w : List Byte} {e : CodecErr}
    (h : decVariableBody p m L w = .error e) : e.kind ≠ .checksumMismatch := by
  unfold decVariableBody at h
  repeat' split at h
  case isFalse.isFalse.isFalse.isTrue fatal => exact absurd fatal.1 hm
  case h_1 payload => cases h; exact decPayload_error_ne payload
  all_goals cases h
  all_goals exact ErrKind.noConfusion

theorem decVariable_error_ne {p : Params} {w : List Byte} {e : CodecErr} (h : decVariable p m w = .error e) :
    e.kind ≠ .checksumMismatch := by
  unfold decVariable at h
  repeat' split at h
  case isFalse.isFalse.isFalse.isFalse.isFalse.isFalse => exact decVariableBody_error_ne hm h
  all_goals cases h
  all_goals exact ErrKind.noConfusion

theorem decLinkInstr_error_ne {p : Params} {i : Instr} {w : List Byte} {e : CodecErr}
    (h : decLinkInstr p i m w = .error e) : e.kind ≠ .checksumMismatch := by
  have single {neg : Bit} (h : decSingle neg w = .error e) : e.kind ≠ .checksumMismatch := by
    unfold decSingle at h
    split at h <;> cases h
    exact ErrKind.noConfusion
  cases i
  case ack => exact single h
  case nack => exact single h
  case fixedFrame => exact decFixed_error_ne hm h
  case variableFrame => exact decVariable_error_ne hm h
  all_goals cases h; exact ErrKind.noConfusion

theorem nonEmpty_decLinkInstr_error_ne {p : Params} {i : Instr} {w : List Byte} {e : CodecErr}
    (h : nonEmpty (decLinkInstr p i) m w = .error e) : e.kind ≠ .checksumMismatch := by
  unfold nonEmpty at h
  split at h
  · cases h; exact ErrKind.noConfusion
  · exact decLinkInstr_error_ne hm h

theorem decFrame_error_ne {p : Params} {w : List Byte} {e : CodecErr} (h : decFrame p m w = .error e) :
    e.kind ≠ .checksumMismatch := by
  unfold decFrame at h
  split at h
  · rename_i reject _
    cases h
    cases reject <;> exact ErrKind.noConfusion
  · exact decLinkInstr_error_ne hm h

end

theorem encAsdu_error_ne {p : Params} {r : Regs} {v : Vector Slot Config.nslot} {e : CodecErr}
    (h : encAsdu p r v = .error e) : e.kind ≠ .checksumMismatch := by
  rcases encAsdu_cases p r v with ⟨_, h'⟩ | ⟨_, _, h'⟩ | ⟨_, _, _, _, _, h'⟩ | ⟨_, _, _, _, h'⟩ <;>
    rw [h'] at h <;> cases h
  all_goals exact ErrKind.noConfusion

theorem encVariable_error_ne {cfg : Cfg} (hm : cfg.csmode ≠ 2) {r : Regs} {payload : List Byte} {e : CodecErr}
    (h : encVariable cfg r payload = .error e) : e.kind ≠ .checksumMismatch := by
  unfold encVariable at h
  repeat' split at h
  case h_1 mismatch => exact absurd (csgen_error mismatch).1 hm
  all_goals cases h
  all_goals exact ErrKind.noConfusion

theorem encFrame_error_ne {p : Params} {cfg : Cfg} (hm : cfg.csmode ≠ 2) {r : Regs} {v : Vector Slot Config.nslot}
    {e : CodecErr} (h : encFrame p cfg r v = .error e) : e.kind ≠ .checksumMismatch := by
  unfold encFrame at h
  split at h
  case h_1 => cases h
  case h_2 =>
    split at h
    · exact absurd (csgen_error (by assumption)).1 hm
    · cases h
  case h_3 =>
    split at h
    · split at h
      · cases h; exact encAsdu_error_ne (by assumption)
      · exact encVariable_error_ne hm h
    · exact encVariable_error_ne hm h
  case h_4 => cases h; exact ErrKind.noConfusion

theorem decodeFrameOp_err_ne {f : BitVec 2 → List Byte → Except CodecErr FrameResult} {s t : State}
    (h : decodeFrameOp f s = .next t) (hf : ∀ w e, f s.cfg.csmode w = .error e → e.kind ≠ .checksumMismatch) :
    t.status.err ≠ 8 := by
  obtain ⟨w, _, ⟨x, _, rfl⟩ | ⟨e, error, rfl⟩⟩ := decodeFrameOp_next h
  · exact (by decide : (0 : BitVec 4) ≠ 8)
  · exact statusErr_err_ne (hf w e error) e.pos

theorem decodeAsduOp_err_ne {f : List Byte → Except CodecErr Asdu} {s t : State} (h : decodeAsduOp f s = .next t)
    (hf : ∀ w e, f w = .error e → e.kind ≠ .checksumMismatch) : t.status.err ≠ 8 := by
  obtain ⟨w, _, ⟨x, _, rfl⟩ | ⟨e, error, rfl⟩⟩ := decodeAsduOp_next h
  · exact (by decide : (0 : BitVec 4) ≠ 8)
  · exact statusErr_err_ne (hf w e error) e.pos

theorem encodeOp_err_ne {x : Except CodecErr (List Byte × Bit)} (s : State)
    (hx : ∀ e, x = .error e → e.kind ≠ .checksumMismatch) : (encodeOp x s).status.err ≠ 8 := by
  rcases encodeOp_cases x s with ⟨b, c, _, h⟩ | ⟨e, error, h⟩ <;> rw [h]
  · exact (by decide : (0 : BitVec 4) ≠ 8)
  · exact statusErr_err_ne (hx e error) 0

theorem bareResult_error {r : Except CodecErr (List Byte)} {e : CodecErr} (h : bareResult r = .error e) :
    r = .error e := by
  cases r <;> cases h
  rfl

/-- Outside FATAL mode no operation ends with ChecksumMismatch (R302). -/
theorem exec_err_ne_checksum {i : Instr} {s t : State} (hm : s.cfg.csmode ≠ 2) (h : exec i s = .next t) :
    t.status.err ≠ 8 := by
  cases level : i.level with
  | link =>
    rw [exec_of_link level] at h
    exact decodeFrameOp_err_ne h fun _ _ => nonEmpty_decLinkInstr_error_ne hm
  | asdu =>
    rw [exec_of_asdu level] at h
    exact decodeAsduOp_err_ne h fun _ _ => decAsduInstr_error_ne
  | cmd =>
    cases i <;> cases level
    case cmd.decFrame.refl => exact decodeFrameOp_err_ne (s := s.setCmd 0) h fun _ _ => decFrame_error_ne hm
    case cmd.decAsdu.refl => exact decodeAsduOp_err_ne (s := s.setCmd 2) h fun _ _ => decAsdu_error_ne
    case cmd.encFrame.refl => cases h; exact encodeOp_err_ne _ fun _ => encFrame_error_ne hm
    case cmd.encAsdu.refl => cases h; exact encodeOp_err_ne _ fun _ error => encAsdu_error_ne (bareResult_error error)

/-- With CSGEN = 0 FATAL refuses to send a wrong checksum (R123). -/
theorem csgen_fatal {cs : Byte} {body : List Byte} (wrong : cs ≠ cssum body) :
    csgen csFatal 0 cs body = .error ⟨.checksumMismatch, 0⟩ := by
  rw [csgen, if_neg (by decide)]
  exact if_pos (checksumFatal_iff.mpr ⟨rfl, wrong⟩)

theorem encVariable_fatal {cfg : Cfg} {r : Regs} {payload : List Byte} (mode : cfg.csmode = 2) (gen : cfg.csgen = 0)
    (fits : payload.length ≤ 253) (wrong : r.cs ≠ cssum (r.ctrl :: r.laddr :: payload)) :
    encVariable cfg r payload = .error ⟨.checksumMismatch, 0⟩ := by
  rw [encVariable, if_neg (by omega), mode, gen, csgen_fatal wrong]

/-- DEC_FRAME on a fixed frame whose checksum byte is wrong under FATAL. -/
theorem failsDecode_fixed_checksum {s : State} (mode : s.cfg.csmode = 2) (inWire : s.wlen.toNat ≤ s.par.bufsz)
    (five : s.wlen = 5) (first : s.byte 0 = 0x10) (stop : s.byte 4 = 0x16)
    (wrong : (s.byte 3).toNat ≠ s.sumAt 1 2) : FailsDecode .decFrame s 0 8 3 := by
  obtain ⟨w, read⟩ : ∃ w, readWire s = some w := ⟨_, readWire_of_le inWire⟩
  have wlen : s.wlen.toNat = 5 := by rw [five]; rfl
  have fatal : ChecksumFatal s.cfg.csmode (byteAt w 3) (slice w 1 3) := by
    refine checksumFatal_iff.mpr ⟨mode, fun right => wrong ?_⟩
    rw [← readWire_sumAt read 1 2 (by omega), ← right, readWire_byte read (by omega)]
  exact failsDecode_of_first (i := .fixedFrame) read (by omega) (by rw [first]; rfl)
    (decFixed_of_fatal (isFixed_of_wire read five stop) fatal)

/-- DEC_FRAME on a variable frame whose checksum byte is wrong under FATAL. -/
theorem failsDecode_variable_checksum {s : State} {w : List Byte} {L : Nat} (mode : s.cfg.csmode = 2)
    (read : readWire s = some w) (form : IsVariable w L) (first : s.byte 0 = 0x68)
    (wrong : (s.byte (L + 4)).toNat ≠ s.sumAt 4 L) : FailsDecode .decFrame s 0 8 (L + 4) := by
  have wlen := (readWire_length read).symm.trans form.length
  have fatal : ChecksumFatal s.cfg.csmode (byteAt w (L + 4)) (slice w 4 (L + 4)) := by
    refine checksumFatal_iff.mpr ⟨mode, fun right => wrong ?_⟩
    rw [← readWire_sumAt read 4 L (by omega), Nat.add_comm 4 L, ← right, readWire_byte read (by omega)]
  exact failsDecode_of_first (i := .variableFrame) read (by omega) (by rw [first]; rfl)
    (decVariable_of_fatal form fatal s.par)

/-- Settles O38: FATAL tests the checksum byte once the frame has its form, the encode tests REC.CS once the record can
be sent, and nothing else raises the error. -/
theorem checksumMismatch : Obligations.ChecksumMismatch := by
  refine ⟨fun s mode inWire => ⟨failsDecode_fixed_checksum mode inWire,
    fun L len two_le wlen first lenAgain start stop wrong => ?framed,
    fun gen => ⟨fun hk wrong => ?fixed, fun hk ha wrong => ?empty, fun payload hk ha sent fits wrong => ?asdu⟩⟩,
    fun i s t => exec_err_ne_checksum⟩
  case framed =>
    have read := readWire_of_le inWire
    have form := isVariable_of_wire read two_le wlen len lenAgain start stop
    exact failsDecode_variable_checksum mode read form first wrong
  all_goals refine failsEncode_of_encFrame (e := ⟨.checksumMismatch, 0⟩) ?_
  case fixed =>
    rw [← cssum_pair] at wrong
    rw [encFrame_fixed hk, mode, gen, csgen_fatal wrong]
  case empty =>
    rw [← cssum_pair] at wrong
    rw [encFrame_variable hk (by rw [ha]; decide), encVariable_fatal mode gen (Nat.zero_le _) wrong]
  case asdu =>
    rw [encFrame_asdu hk ha, sent]
    exact encVariable_fatal mode gen fits wrong

end Sys2Proof.Machine
end

section
/-! PROOFS. Encodes of frames into WIRE (spec/40_link_frames.md R121, R123; spec/46_host_operations.md R272): the bytes
of an encoded ASDU one by one, and the state that ENC_FRAME leaves. -/

namespace Sys2Proof.Machine

/-! ## The bytes of an encoded ASDU (R85, R190) -/

/-- Byte j of piece i of a string made of pieces of n bytes. -/
theorem byteAt_flatMap_const {α : Type} {f : α → List Byte} {n : Nat} {l : List α} (h : ∀ x ∈ l, (f x).length = n)
    {i j : Nat} (hi : i < l.length) (hj : j < n) : byteAt (l.flatMap f) (i * n + j) = byteAt (f l[i]) j := by
  induction l generalizing i with
  | nil => exact absurd hi (Nat.not_lt_zero i)
  | cons x l ih =>
    have size := h x List.mem_cons_self
    rw [List.flatMap_cons]
    cases i with
    | zero =>
      rw [Nat.zero_mul, Nat.zero_add, byteAt_append_left (by rw [size]; exact hj)]
      rfl
    | succ i =>
      rw [Nat.succ_mul, Nat.add_comm (i * n) n, Nat.add_assoc, ← size, byteAt_append_right, size]
      exact ih (fun y hy => h y (List.mem_cons_of_mem x hy)) (Nat.lt_of_succ_lt_succ hi)

/-- The two bytes of an address as a little-endian number (R9, R61). -/
theorem put16_word (v : Addr) : (byteAt (put16 v) 0).toNat + 256 * (byteAt (put16 v) 1).toNat = v.toNat :=
  (le16_toNat (s := put16 v) (Nat.le_refl 2)).symm.trans
    (congrArg BitVec.toNat ((congrArg (le16 · 0) (List.append_nil _).symm).trans (le16_put16 v [])))

theorem byteAt_take_eg {sl : Slot} {g j : Nat} (hj : j < Config.gmax) (h : j < g) :
    byteAt (sl.eg.toList.take g) j = sl.eg[j] := by
  have size : j < (sl.eg.toList.take g).length := by
    simp only [List.length_take, Vector.length_toList, lt_min_iff]
    exact ⟨h, hj⟩
  rw [byteAt, List.getD_eq_getElem _ _ size, List.getElem_take, Vector.getElem_toList]

section
variable {g : Nat} (hg : g ≤ Config.gmax) {num : BitVec 7} {i : Nat} (hi : i < Config.nslot) (hn : i < num.toNat)
  (v : Vector Slot Config.nslot)
include hg hn

/-- Byte j of what is sent for slot i with SQ = 0 (R88, R190). -/
theorem byteAt_encObjs_discrete {j : Nat} (hj : j < 2 + g) :
    byteAt (encObjs g 0 num v) (i * (2 + g) + j) = byteAt (slotDiscreteBytes g v[i]) j := by
  rw [encObjs, if_pos rfl,
    byteAt_flatMap_const (fun sl _ => slotDiscreteBytes_length g sl hg) (by simp [hn, hi]) hj,
    List.getElem_take, Vector.getElem_toList]

/-- Byte j of what is sent for slot i with SQ = 1 (R89, R190). -/
theorem byteAt_encObjs_sequence {j : Nat} (hj : j < g) :
    byteAt (encObjs g 1 num v) (2 + (i * g + j)) = byteAt (slotGroupBytes g v[i]) j := by
  rw [encObjs, if_neg (by decide)]
  refine (byteAt_append_right (put16 _) _ _).trans ?_
  rw [byteAt_flatMap_const (fun sl _ => slotGroupBytes_length g sl hg) (by simp [hn, hi]) hj,
    List.getElem_take, Vector.getElem_toList]

end

/-- The base address of what is sent with SQ = 1 (R89, R191). -/
theorem byteAt_encObjs_base (g : Nat) (num : BitVec 7) (v : Vector Slot Config.nslot) {j : Nat} (hj : j < 2) :
    byteAt (encObjs g 1 num v) j = byteAt (put16 v[0].addr) j := by
  rw [encObjs, if_neg (by decide), byteAt_append_left (by rw [put16_length]; exact hj)]

/-- The object list that is sent stands in WIRE object by object (R88, R89, R190). -/
theorem objects_written {t : State} {a g : Nat} {sq : Bit} {num : BitVec 7} {v : Vector Slot Config.nslot}
    (hg : g ≤ Config.gmax)
    (bytes : ∀ k, k < objsSize g sq num → t.byte (a + 4 + k) = byteAt (encObjs g sq num v) k)
    {i : Nat} (h : i < Config.nslot) (hi : i < num.toNat) :
    (if sq = 0 then t.word16 (a + 4 + i * (2 + g)) = v[i].addr.toNat else t.word16 (a + 4) = v[0].addr.toNat) ∧
      ∀ j (hj : j < Config.gmax), j < g → t.byte (groupOffset a g sq i + j) = v[i].eg[j] := by
  have bit : sq = 0 ∨ sq = 1 := BitVec.eq_zero_or_eq_one sq
  rcases bit with rfl | rfl
  · have room := mul_add_le (g := 2 + g) hi
    have sent {j : Nat} (hj : j < 2 + g) :
        t.byte (a + 4 + (i * (2 + g) + j)) = byteAt (slotDiscreteBytes g v[i]) j := by
      rw [bytes _ (by rw [objsSize, if_pos rfl]; omega), byteAt_encObjs_discrete hg h hi v hj]
    rw [if_pos rfl]
    refine ⟨?_, fun j hj hjg => ?_⟩
    · have low : t.byte (a + 4 + i * (2 + g)) = byteAt (put16 v[i].addr) 0 := sent (j := 0) (by omega)
      have high : t.byte (a + 4 + i * (2 + g) + 1) = byteAt (put16 v[i].addr) 1 := sent (j := 1) (by omega)
      rw [← put16_word, State.word16, low, high]
    · rw [groupOffset, if_pos rfl, Nat.add_assoc _ 2 j, Nat.add_assoc (a + 4), sent (by omega), slotDiscreteBytes]
      exact (byteAt_append_right (put16 _) _ j).trans (byteAt_take_eg hj hjg)
  · have room := mul_add_le (g := g) hi
    have base {j : Nat} (hj : j < 2) : t.byte (a + 4 + j) = byteAt (put16 v[0].addr) j := by
      rw [bytes _ (by rw [objsSize, if_neg (by decide)]; omega), byteAt_encObjs_base g num v hj]
    rw [if_neg (by decide)]
    refine ⟨?_, fun j hj hjg => ?_⟩
    · rw [← put16_word, State.word16, base (j := 1) (by omega), ← base (j := 0) (by omega)]
    · rw [groupOffset, if_neg (by decide), show a + 6 + i * g + j = a + 4 + (2 + (i * g + j)) by omega,
        bytes _ (by rw [objsSize, if_neg (by decide)]; omega), byteAt_encObjs_sequence hg h hi v hjg]
      exact byteAt_take_eg hj hjg

/-- What `enc_asdu` sends, wherever its bytes stand in WIRE (R85, R190). -/
theorem asduWritten_of_bytes {s t : State} {row : Row} {a : Nat} (hg : s.par.gsize row ≤ Config.gmax)
    (bytes : ∀ k, k < 4 + objsSize (s.par.gsize row) (vsqSq s.regs.vsq) (vsqNum s.regs.vsq) →
      t.byte (a + k) = byteAt ([s.regs.ti, s.regs.vsq, s.regs.cotb, s.regs.ca] ++
        encObjs (s.par.gsize row) (vsqSq s.regs.vsq) (vsqNum s.regs.vsq) s.slots) k) :
    AsduWritten s t a (s.par.gsize row) (vsqSq s.regs.vsq) (vsqNum s.regs.vsq).toNat := by
  refine ⟨bytes 0 (by omega), bytes 1 (by omega), bytes 2 (by omega), bytes 3 (by omega),
    fun i h hi => objects_written hg (fun k hk => ?_) h hi⟩
  rw [Nat.add_assoc, bytes (4 + k) (by omega)]
  exact byteAt_append_right _ _ k

/-! ## The state that ENC_FRAME leaves (R272) -/

/-- t is s after ENC_FRAME sent the bytes b with CSERR c: the record side kept, b in WIRE from offset 0 and nothing else
of WIRE changed, WLEN the number of bytes. -/
structure FrameSent (s t : State) (b : List Byte) (c : Bit) : Prop where
  record : KeepsRecordSide s t
  cmd : t.cmd = 1
  wlen : t.wlen.toNat = b.length
  byte : ∀ k, k < b.length → t.byte k = byteAt b k
  kept : ∀ k, b.length ≤ k → t.byte k = s.byte k
  status : t.status = statusOk c

theorem exec_encFrame_sent {s : State} (hp : s.par.valid = true) (wf : Memory.wf s.par.bufsz s.wire = true)
    {b : List Byte} {c : Bit} (h : encFrame s.par s.cfg s.regs s.slots = .ok (b, c)) :
    ∃ t, exec .encFrame s = .next t ∧ FrameSent s t b c := by
  have short := encFrame_length h
  have room := (Params.valid_bufsz hp).1
  have wire := storeWire_read (s := s.setCmd 1) (c := c) wf (show b.length ≤ s.par.bufsz by omega)
  refine ⟨storeWire (s.setCmd 1) b c, by rw [exec_encFrame, h]; rfl, ⟨rfl, rfl, rfl, rfl, rfl⟩, rfl,
    storeWire_wlen_toNat (by omega), fun k hk => ?_, fun k hk => ?_, rfl⟩
  · exact (wire k).trans (if_pos hk)
  · exact (wire k).trans (if_neg (Nat.not_lt.mpr hk))

theorem FrameSent.wlen_eq {s t : State} {b : List Byte} {c : Bit} (h : FrameSent s t b c) {n : BitVec 12}
    (hn : b.length = n.toNat) : t.wlen = n := BitVec.eq_of_toNat_eq (h.wlen.trans hn)

theorem FrameSent.csmode {s t : State} {b : List Byte} {c : Bit} (h : FrameSent s t b c) :
    t.cfg.csmode = s.cfg.csmode := by
  obtain ⟨_, _, _, cfg, _⟩ := h.record
  rw [cfg]

/-- The checksum byte that an encode sends (R123). -/
def checksumSent (g : Bit) (cs : Byte) (body : List Byte) : Byte := if g = 1 then cssum body else cs

/-- The checksum byte an encode sends and its CSERR, when FATAL has nothing to refuse (R123). -/
theorem csgen_of_policy {m : BitVec 2} {g : Bit} {cs : Byte} {body : List Byte}
    (policy : g = 0 → m = 2 → cs = cssum body) :
    csgen m g cs body = .ok (checksumSent g cs body, if g = 1 then 0 else cscheck m (checksumSent g cs body) body) := by
  unfold checksumSent
  rcases csgen_cases m g cs body with ⟨one, h⟩ | ⟨zero, mode, wrong, _⟩ | ⟨zero, _, h⟩
  · rw [h, if_pos one, if_pos one]
  · exact absurd (policy ((BitVec.eq_zero_or_eq_one g).resolve_right zero) mode) wrong
  · rw [h, if_neg zero, if_neg zero]

/-- A sent variable frame, byte by byte: the link part around the body, and the checksum over the body (R113, R121). -/
theorem FrameSent.variableBytes {s t : State} {body : List Byte} {k : Byte} {c : Bit}
    (h : FrameSent s t (variableBytes body k) c) :
    t.byte 0 = 0x68 ∧ t.byte 1 = BitVec.ofNat 8 body.length ∧ t.byte 2 = BitVec.ofNat 8 body.length ∧
      t.byte 3 = 0x68 ∧ (∀ i, i < body.length → t.byte (4 + i) = byteAt body i) ∧ t.byte (body.length + 4) = k ∧
      t.byte (body.length + 5) = 0x16 ∧ t.sumAt 4 body.length = (cssum body).toNat ∧
      t.cserrAt k 4 body.length = cscheck s.cfg.csmode k body := by
  have size := variableBytes_length body k
  have sent (i : Nat) (hi : i < body.length) : t.byte (4 + i) = byteAt body i := by
    rw [h.byte _ (by omega), variableBytes_body body k hi]
  refine ⟨h.byte 0 (by omega), h.byte 1 (by omega), h.byte 2 (by omega), h.byte 3 (by omega), sent, ?_, ?_,
    sumAt_eq t 4 _ body rfl fun i hi => (sent i hi).symm, ?_⟩
  · rw [h.byte _ (by omega), variableBytes_cs]
  · rw [h.byte _ (by omega)]
    exact variableBytes_tail body k 1
  · rw [cserrAt_eq t k 4 _ body rfl fun i hi => (sent i hi).symm, h.csmode]

/-- Settles O23: the bytes the codec gives for each KIND stand in WIRE, and CSERR is the check over them. -/
theorem encFrameEncodes : Obligations.EncFrameEncodes := by
  intro s hp wf
  refine ⟨fun hk => ?single, fun hk policy => ?fixed, fun hk ha policy => ?empty⟩
  case single =>
    obtain ⟨t, run, sent⟩ := exec_encFrame_sent hp wf (encFrame_single hk)
    exact ⟨t, run, sent.record, sent.cmd, sent.wlen_eq rfl, sent.byte 0 Nat.one_pos, sent.kept, sent.status⟩
  case fixed =>
    rw [← cssum_pair] at policy ⊢
    obtain ⟨t, run, sent⟩ := exec_encFrame_sent hp wf (encFrame_fixed_of_csgen hk (csgen_of_policy policy) s.slots)
    have bytes (k : Nat) (hk : k < 5) := sent.byte k hk
    have body : ∀ i, i < 2 → byteAt [s.regs.ctrl, s.regs.laddr] i = t.byte (1 + i)
      | 0, _ => (bytes 1 (by decide)).symm
      | 1, _ => (bytes 2 (by decide)).symm
    have cs : t.byte 3 = checksumSent s.cfg.csgen s.regs.cs [s.regs.ctrl, s.regs.laddr] := bytes 3 (by decide)
    refine ⟨t, run, sent.record, sent.cmd, sent.wlen_eq rfl, bytes 0 (by decide), bytes 1 (by decide),
      bytes 2 (by decide), cs, bytes 4 (by decide), sent.kept, sent.status.trans ?_⟩
    rw [cs, cserrAt_eq t _ 1 2 _ rfl body, sent.csmode]
    rfl
  case empty =>
    rw [← cssum_pair] at policy ⊢
    have ok := encVariable_of_csgen (payload := []) (Nat.zero_le _) (csgen_of_policy policy)
    rw [← encFrame_variable (p := s.par) (v := s.slots) hk (by rw [ha]; decide)] at ok
    obtain ⟨t, run, sent⟩ := exec_encFrame_sent hp wf ok
    obtain ⟨start, len, lenAgain, startAgain, body, cs, stop, _, cserr⟩ := sent.variableBytes
    refine ⟨t, run, sent.record, sent.cmd, sent.wlen_eq rfl, start, len, lenAgain, startAgain,
      body 0 Nat.zero_lt_two, body 1 Nat.one_lt_two, cs, stop, sent.kept, sent.status.trans ?_⟩
    change t.byte 6 = _ at cs
    change t.cserrAt _ 4 2 = _ at cserr
    rw [cs, cserr]
    rfl

/-- Settles O24: the body is the link part and the ASDU's bytes, which fit the length byte. -/
theorem encFrameEncodesAsdu : Obligations.EncFrameEncodesAsdu := by
  intro s row L hp wf hk ha found hn legal size fits policy
  have hg := (Params.valid_gsize hp found).2
  have asdu := encAsdu_of_legal found hn legal s.slots
  generalize payload_eq : [s.regs.ti, s.regs.vsq, s.regs.cotb, s.regs.ca] ++
    encObjs (s.par.gsize row) (vsqSq s.regs.vsq) (vsqNum s.regs.vsq) s.slots = payload at asdu
  have length : payload.length = 4 + objsSize (s.par.gsize row) (vsqSq s.regs.vsq) (vsqNum s.regs.vsq) := by
    rw [← payload_eq, List.length_append, encObjs_length _ _ _ _ hg]; rfl
  rw [← objsSize_eq_listBytes] at size
  have body_length : (s.regs.ctrl :: s.regs.laddr :: payload).length = L := by
    rw [List.length_cons, List.length_cons]; omega
  have ok := encVariable_of_csgen (r := s.regs) (by omega) (csgen_of_policy fun gen mode => policy gen mode _ asdu)
  have sends := encFrame_asdu (p := s.par) (cfg := s.cfg) (v := s.slots) hk ha
  rw [asdu] at sends
  obtain ⟨t, run, sent⟩ := exec_encFrame_sent hp wf (sends.trans ok)
  obtain ⟨start, len, lenAgain, startAgain, body, cs, stop, sum, cserr⟩ := sent.variableBytes
  have wlen := sent.wlen
  have kept := sent.kept
  rw [variableBytes_length] at wlen kept
  rw [body_length] at len lenAgain body cs stop sum cserr wlen kept
  have lenNat : (BitVec.ofNat 8 L).toNat = L := (BitVec.toNat_ofNat _ _).trans (Nat.mod_eq_of_lt (by omega))
  refine ⟨t, run, sent.record, sent.cmd, wlen, start, by rw [len, lenNat], by rw [lenAgain, lenNat], startAgain,
    body 0 (by omega), body 1 (by omega), ?written, ?checksum, stop, kept, sent.status.trans ?flag⟩
  case written =>
    refine asduWritten_of_bytes hg fun k hk => ?_
    rw [payload_eq, ← show byteAt (s.regs.ctrl :: s.regs.laddr :: payload) (k + 2) = byteAt payload k from rfl,
      ← body (k + 2) (by omega), show 6 + k = 4 + (k + 2) by omega]
  case checksum =>
    rw [cs, sum, checksumSent]
    split <;> rfl
  case flag =>
    rw [cs, cserr]
    rfl

end Sys2Proof.Machine
end

section
/-! PROOFS. Time tags and elements (spec/41_timestamps.md R140 to R142; spec/42_elements.md R150 to R166;
spec/44_commands.md R210 to R214): a packed element bit by bit, pack and unpack as inverses of each other, and where the
fields lie. -/

namespace Sys2Proof

/-- Every bit of an element has one owner among the kind's fields (R140, R150). -/
theorem Params.layout_owner {p : Params} (hp : p.valid = true) {k : Kind} {n : Nat} (hn : n < 8 * p.kindSize k) :
    ∃! e, e ∈ p.layout k ∧ e.2.Has n := by
  obtain ⟨e, only⟩ := List.length_eq_one_iff.mp (Params.valid_bit hp k hn)
  have owns (x : Field × BitField) : x ∈ p.layout k ∧ x.2.Has n ↔ x = e := by
    rw [← List.mem_singleton, ← only, List.mem_filter, decide_eq_true_iff, BitField.Has]
  exact ⟨e, (owns e).mpr rfl, fun x => (owns x).mp⟩

end Sys2Proof

namespace Sys2Proof.Machine

/-! ## The record that is packed (R150) -/

theorem fieldsFit_iff {l : List (Field × BitField)} {r : Field → Nat} :
    fieldsFit l r = true ↔ ∀ e ∈ l, r e.1 < 2 ^ e.2.width := by
  simp only [fieldsFit, List.all_eq_true, decide_eq_true_eq]

/-- A record fits its kind's layout when the value of each field of the kind fits. -/
theorem fieldsFit_layout_iff {p : Params} (hp : p.valid = true) {k : Kind} {r : Field → Nat} :
    fieldsFit (p.layout k) r = true ↔ ∀ f b, p.fieldOf k f = some b → r f < 2 ^ b.width := by
  rw [fieldsFit_iff]
  exact ⟨fun fits f b field => fits (f, b) (assoc_mem field),
    fun fits e he => fits e.1 e.2 (assoc_of_mem (Params.valid_names hp k) he)⟩

/-! ## A packed element bit by bit (R150) -/

theorem packNat_concat (l : List (Field × BitField)) (e : Field × BitField) (r : Field → Nat) :
    packNat (l ++ [e]) r = setBits (packNat l r) e.2.lo e.2.width (r e.1) := List.foldl_concat ..

/-- A bit that one field alone owns is that field's. -/
theorem packNat_testBit {l : List (Field × BitField)} {r : Field → Nat} (fits : ∀ e ∈ l, r e.1 < 2 ^ e.2.width)
    {e : Field × BitField} {n : Nat} (he : e ∈ l) (has : e.2.Has n) (only : ∀ x ∈ l, x.2.Has n → x = e) :
    (packNat l r).testBit n = (r e.1).testBit (n - e.2.lo) := by
  induction l using List.reverseRecOn with
  | nil => cases he
  | append_singleton l x ih =>
    simp only [List.forall_mem_append, List.forall_mem_singleton] at fits only
    rw [packNat_concat, setBits_testBit fits.2]
    by_cases last : x.2.Has n
    · exact (if_pos last).trans (by rw [only.2 last])
    · have earlier : e ∈ l := (List.mem_append.mp he).resolve_right fun mem => last (List.mem_singleton.mp mem ▸ has)
      exact (if_neg last).trans (ih fits.1 earlier only.1)

theorem packNat_lt {l : List (Field × BitField)} {r : Field → Nat} (fits : ∀ e ∈ l, r e.1 < 2 ^ e.2.width) {m : Nat}
    (inside : ∀ e ∈ l, e.2.lo + e.2.width ≤ m) : packNat l r < 2 ^ m := by
  induction l using List.reverseRecOn with
  | nil => exact Nat.two_pow_pos m
  | append_singleton l e ih =>
    simp only [List.forall_mem_append, List.forall_mem_singleton] at fits inside
    rw [packNat_concat]
    exact setBits_lt (ih fits.1 inside.1) fits.2 inside.2

/-! ## Pack and unpack are inverses of each other (R140, R150) -/

/-- A number of w bits is the whole of its w lowest bits. -/
theorem getBits_whole {v w : Nat} (h : v < 2 ^ w) : getBits v 0 w = v := by
  rw [getBits, Nat.pow_zero, Nat.div_one, Nat.mod_eq_of_lt h]

theorem leBytes_leNat (bs : List Byte) : leBytes bs.length (leNat bs) = bs := by
  induction bs with
  | nil => rfl
  | cons b bs ih =>
    have := b.isLt
    have head : BitVec.ofNat 8 (b.toNat + 256 * leNat bs) = b :=
      BitVec.eq_of_toNat_eq (by rw [BitVec.toNat_ofNat]; omega)
    have tail : (b.toNat + 256 * leNat bs) / 256 = leNat bs := by omega
    rw [leNat, List.length_cons, leBytes, head, tail, ih]

section
variable {p : Params} {k : Kind}

theorem packKind_of_fits {r : Field → Nat} (fits : fieldsFit (p.layout k) r = true) :
    packKind p k r = some (leBytes (p.kindSize k) (packNat (p.layout k) r)) := if_pos fits

theorem packKind_some {r : Field → Nat} {bs : List Byte} (packed : packKind p k r = some bs) :
    fieldsFit (p.layout k) r = true ∧ bs = leBytes (p.kindSize k) (packNat (p.layout k) r) := by
  rw [packKind, Option.ite_none_right_eq_some, Option.some.injEq] at packed
  exact packed.imp_right Eq.symm

theorem packKind_length {r : Field → Nat} {bs : List Byte} (packed : packKind p k r = some bs) :
    bs.length = p.kindSize k := by
  rw [(packKind_some packed).2, leBytes_length]

variable (hp : p.valid = true)
include hp

theorem packNat_layout_lt {r : Field → Nat} (fits : fieldsFit (p.layout k) r = true) :
    packNat (p.layout k) r < 2 ^ (8 * p.kindSize k) :=
  packNat_lt (fieldsFit_iff.mp fits) fun _ => Params.valid_field hp

/-- A bit of a packed element is its owner's. -/
theorem packNat_layout_testBit {r : Field → Nat} (fits : fieldsFit (p.layout k) r = true) {e : Field × BitField}
    {n : Nat} (he : e ∈ p.layout k) (has : e.2.Has n) :
    (packNat (p.layout k) r).testBit n = (r e.1).testBit (n - e.2.lo) :=
  packNat_testBit (fieldsFit_iff.mp fits) he has fun _ hx hasx =>
    (Params.layout_owner hp (has.2.trans_le (Params.valid_field hp he))).unique ⟨hx, hasx⟩ ⟨he, has⟩

/-- Each field of a packed element reads as the value it was packed with. -/
theorem unpackKind_of_packKind {r : Field → Nat} {bs : List Byte} (packed : packKind p k r = some bs) {f : Field}
    {b : BitField} (field : p.fieldOf k f = some b) : unpackKind p k bs f = some (r f) := by
  obtain ⟨fits, rfl⟩ := packKind_some packed
  have mem := assoc_mem field
  rw [unpackKind, field, Option.map_some, unpackField, leNat_leBytes (packNat_layout_lt hp fits)]
  refine congrArg some ((getBits_congr fun n hn => ?_).trans (getBits_whole (fieldsFit_iff.mp fits _ mem)))
  have inside : n + b.lo < b.lo + b.width := by omega
  rw [packNat_layout_testBit hp fits mem ⟨Nat.le_add_left .., inside⟩, Nat.add_sub_cancel, Nat.add_zero]

/-- Whatever a packed element reads as is what it was packed with. -/
theorem packKind_value {r : Field → Nat} {bs : List Byte} (packed : packKind p k r = some bs) {f : Field} {x : Nat}
    (got : unpackKind p k bs f = some x) : x = r f := by
  obtain ⟨b, field, _⟩ := Option.map_eq_some_iff.mp got
  exact Option.some.inj (got.symm.trans (unpackKind_of_packKind hp packed field))

/-- The values an element unpacks to, packed, are the element (R150). -/
theorem packKind_unpackKind {bs : List Byte} (size : bs.length = p.kindSize k) :
    packKind p k (fun f => (unpackKind p k bs f).getD 0) = some bs := by
  generalize hr : (fun f => (unpackKind p k bs f).getD 0) = r
  have value {e : Field × BitField} (he : e ∈ p.layout k) : r e.1 = getBits (leNat bs) e.2.lo e.2.width := by
    have field : p.fieldOf k e.1 = some e.2 := assoc_of_mem (Params.valid_names hp k) he
    simp only [← hr, unpackKind, field, Option.map_some, Option.getD_some, unpackField]
  have fits : fieldsFit (p.layout k) r = true :=
    fieldsFit_iff.mpr fun e he => value he ▸ Nat.mod_lt _ (Nat.two_pow_pos _)
  have number : packNat (p.layout k) r = leNat bs := by
    rw [← getBits_whole (packNat_layout_lt hp fits), ← getBits_whole (leNat_lt bs), size]
    refine getBits_congr fun n hn => ?_
    obtain ⟨e, ⟨he, lo, hi⟩, _⟩ := Params.layout_owner hp hn
    rw [Nat.add_zero, packNat_layout_testBit hp fits he ⟨lo, hi⟩, value he, getBits_testBit, Nat.sub_add_cancel lo,
      decide_eq_true (by omega), Bool.true_and]
  rw [packKind_of_fits fits, number, ← size, leBytes_leNat]

/-- A value wider than its field is refused (R150). -/
theorem packKind_refused {r : Field → Nat} {f : Field} {b : BitField} (field : p.fieldOf k f = some b)
    (wide : 2 ^ b.width ≤ r f) : packKind p k r = none :=
  if_neg fun fits => Nat.not_lt.mpr wide ((fieldsFit_layout_iff hp).mp fits f b field)

end

/-! ## Fields by the bytes they lie in (R61) -/

/-- A field inside byte j of an element. -/
theorem unpackField_byte (bs : List Byte) (j lo w : Nat) (h : lo + w ≤ 8) :
    unpackField bs ⟨8 * j + lo, w⟩ = (byteAt bs j).toNat / 2 ^ lo % 2 ^ w := by
  refine getBits_congr (v' := (byteAt bs j).toNat) fun n (hn : n < w) => ?_
  rw [show n + (8 * j + lo) = 8 * j + (n + lo) by omega, leNat_testBit bs j (by omega), BitVec.getLsbD]

/-- A field that ends with bit 7 of byte j of an element. -/
theorem unpackField_top (bs : List Byte) (j lo w : Nat) (h : lo + w = 8) :
    unpackField bs ⟨8 * j + lo, w⟩ = (byteAt bs j).toNat / 2 ^ lo := by
  rw [unpackField_byte bs j lo w h.le, Nat.mod_eq_of_lt]
  rw [Nat.div_lt_iff_lt_mul (Nat.two_pow_pos lo), ← Nat.pow_add, Nat.add_comm, h]
  exact (byteAt bs j).isLt

/-- A field that starts with bit 0 of byte j of an element. -/
theorem unpackField_low (bs : List Byte) (j w : Nat) (h : w ≤ 8) :
    unpackField bs ⟨8 * j, w⟩ = (byteAt bs j).toNat % 2 ^ w := by
  rw [← Nat.add_zero (8 * j), unpackField_byte bs j 0 w (by omega), Nat.pow_zero, Nat.div_one]

/-! ## The time tags (R141, R142) -/

section
variable {k : Kind} (h : k = .cp24 ∨ k = .cp56) {p : Params} {b0 b1 b2 : Byte} {rest : List Byte}
include h

/-- The time tags are no part of LAYOUTS, so what was packed reads back under any parameters. -/
theorem packKind_timeTag_value {r : Field → Nat} {bs : List Byte} (packed : packKind p k r = some bs) {f : Field}
    {x : Nat} (got : unpackKind p k bs f = some x) : x = r f := by
  rcases h with rfl | rfl
  · exact packKind_value (k := .cp24) specParams_valid packed got
  · exact packKind_value (k := .cp56) specParams_valid packed got

/-- The fields of the three bytes that CP24 and CP56 share. -/
theorem unpackKind_timeFields :
    unpackKind p k (b0 :: b1 :: b2 :: rest) .ms = some (b0.toNat + 256 * b1.toNat) ∧
      unpackKind p k (b0 :: b1 :: b2 :: rest) .iv = some (b2.toNat / 128) ∧
      unpackKind p k (b0 :: b1 :: b2 :: rest) .sub = some (b2.toNat / 64 % 2) ∧
      unpackKind p k (b0 :: b1 :: b2 :: rest) .min = some (b2.toNat % 64) := by
  have ms : unpackField (b0 :: b1 :: b2 :: rest) ⟨0, 16⟩ = b0.toNat + 256 * b1.toNat := by
    simp only [unpackField, getBits, leNat]
    omega
  have iv := unpackField_top (b0 :: b1 :: b2 :: rest) 2 7 1 rfl
  have sub := unpackField_byte (b0 :: b1 :: b2 :: rest) 2 6 1 (by decide)
  have min := unpackField_low (b0 :: b1 :: b2 :: rest) 2 6 (by decide)
  rcases h with rfl | rfl <;> exact ⟨congrArg some ms, congrArg some iv, congrArg some sub, congrArg some min⟩

/-- The three bytes that CP24 and CP56 share, in a packed time tag. -/
theorem packKind_timeFields {r : Field → Nat} (packed : packKind p k r = some (b0 :: b1 :: b2 :: rest)) :
    [b0, b1, b2].map BitVec.toNat = [r .ms % 256, r .ms / 256, 128 * r .iv + 64 * r .sub + r .min] := by
  obtain ⟨ms, iv, sub, min⟩ := unpackKind_timeFields h (p := p) (b0 := b0) (b1 := b1) (b2 := b2) (rest := rest)
  have ms := packKind_timeTag_value h packed ms
  have iv := packKind_timeTag_value h packed iv
  have sub := packKind_timeTag_value h packed sub
  have min := packKind_timeTag_value h packed min
  simp only [List.map_cons, List.map_nil, List.cons.injEq, and_true]
  omega

end

/-- The fields of the four bytes that CP56 alone has (R142). -/
theorem unpackKind_cp56 (p : Params) (b0 b1 b2 b3 b4 b5 b6 : Byte) :
    let get := unpackKind p .cp56 [b0, b1, b2, b3, b4, b5, b6]
    get .su = some (b3.toNat / 128) ∧ get .res1 = some (b3.toNat / 32 % 4) ∧ get .hour = some (b3.toNat % 32) ∧
      get .dow = some (b4.toNat / 32) ∧ get .day = some (b4.toNat % 32) ∧
      get .res2 = some (b5.toNat / 16) ∧ get .mon = some (b5.toNat % 16) ∧
      get .res3 = some (b6.toNat / 128) ∧ get .year = some (b6.toNat % 128) :=
  ⟨congrArg some (unpackField_top _ 3 7 1 rfl), congrArg some (unpackField_byte _ 3 5 2 (by decide)),
    congrArg some (unpackField_low _ 3 5 (by decide)), congrArg some (unpackField_top _ 4 5 3 rfl),
    congrArg some (unpackField_low _ 4 5 (by decide)), congrArg some (unpackField_top _ 5 4 4 rfl),
    congrArg some (unpackField_low _ 5 4 (by decide)), congrArg some (unpackField_top _ 6 7 1 rfl),
    congrArg some (unpackField_low _ 6 7 (by decide))⟩

theorem eq_ofNat_of_toNat {b : Byte} {n : Nat} (h : b.toNat = n) : b = BitVec.ofNat 8 n := by
  rw [← h, BitVec.ofNat_toNat, BitVec.setWidth_eq]

/-- CP24 of a record that fits (R141). -/
theorem packKind_cp24 (p : Params) {r : Field → Nat} (fits : fieldsFit layoutCp24.fields r = true) :
    ∃ bs, packKind p .cp24 r = some bs ∧
      bs.map BitVec.toNat = [r .ms % 256, r .ms / 256, 128 * r .iv + 64 * r .sub + r .min] := by
  have packed : packKind p .cp24 r = _ := packKind_of_fits fits
  obtain ⟨b0, b1, b2, bytes⟩ := List.length_eq_three.mp (packKind_length packed)
  rw [bytes] at packed
  exact ⟨_, packed, packKind_timeFields (.inl rfl) packed⟩

/-- CP56 of a record that fits is the three bytes it shares with CP24 and four more (R142). -/
theorem packKind_cp56 (p : Params) {r : Field → Nat} (fits : fieldsFit layoutCp56.fields r = true) {bs : List Byte}
    (shared : bs.map BitVec.toNat = [r .ms % 256, r .ms / 256, 128 * r .iv + 64 * r .sub + r .min]) :
    packKind p .cp56 r =
      some (bs ++
        [BitVec.ofNat 8 (128 * r .su + 32 * r .res1 + r .hour), BitVec.ofNat 8 (32 * r .dow + r .day),
         BitVec.ofNat 8 (16 * r .res2 + r .mon), BitVec.ofNat 8 (128 * r .res3 + r .year)]) := by
  have packed : packKind p .cp56 r = _ := packKind_of_fits fits
  match h : leBytes (p.kindSize .cp56) (packNat (p.layout .cp56) r), packKind_length packed with
  | [b0, b1, b2, b3, b4, b5, b6], _ =>
    rw [h] at packed
    have head : [b0, b1, b2] = bs :=
      List.map_injective_iff.mpr (fun _ _ => BitVec.eq_of_toNat_eq)
        ((packKind_timeFields (.inr rfl) packed).trans shared.symm)
    obtain ⟨su, res1, hour, dow, day, res2, mon, res3, year⟩ := unpackKind_cp56 p b0 b1 b2 b3 b4 b5 b6
    have value {f : Field} {x : Nat} := packKind_timeTag_value (.inr rfl) packed (f := f) (x := x)
    have byte3 : b3 = BitVec.ofNat 8 (128 * r .su + 32 * r .res1 + r .hour) :=
      eq_ofNat_of_toNat (by rw [← value su, ← value res1, ← value hour]; omega)
    have byte4 : b4 = BitVec.ofNat 8 (32 * r .dow + r .day) :=
      eq_ofNat_of_toNat (by rw [← value dow, ← value day]; omega)
    have byte5 : b5 = BitVec.ofNat 8 (16 * r .res2 + r .mon) :=
      eq_ofNat_of_toNat (by rw [← value res2, ← value mon]; omega)
    have byte6 : b6 = BitVec.ofNat 8 (128 * r .res3 + r .year) :=
      eq_ofNat_of_toNat (by rw [← value res3, ← value year]; omega)
    rw [packed, ← head, ← byte3, ← byte4, ← byte5, ← byte6]
    rfl

/-- Settles O42: a field is read from the byte it lies in, and packed bytes are the ones whose fields read back as the
record. -/
theorem timeTagFields : Obligations.TimeTagFields := by
  refine ⟨fun p k b0 b1 b2 b3 b4 b5 b6 b get tag unpacked => ?unpack, fun p r ms iv sub min => ?pack⟩
  case unpack =>
    subst unpacked
    rcases tag with ⟨rfl, rfl⟩ | ⟨rfl, rfl⟩
    · obtain ⟨ms, iv, sub, min⟩ := unpackKind_timeFields (.inl rfl) (p := p)
      exact ⟨ms, iv, sub, min, nofun⟩
    · obtain ⟨ms, iv, sub, min⟩ := unpackKind_timeFields (.inr rfl) (p := p)
      exact ⟨ms, iv, sub, min, fun _ => unpackKind_cp56 p b0 b1 b2 b3 b4 b5 b6⟩
  case pack =>
    obtain ⟨bs, packed, bytes⟩ := packKind_cp24 p (r := r) (by simp [fieldsFit, layoutCp24, timeFields, *])
    refine ⟨bs, packed, bytes, fun su res1 hour dow day res2 mon res3 year => packKind_cp56 p ?_ bytes⟩
    simp [fieldsFit, layoutCp56, timeFields, *]

/-! ## The element kinds (R151 to R166, R211 to R214) -/

theorem assoc_map {α β γ : Type} [DecidableEq α] (g : β → γ) (a : α) (l : List (α × β)) :
    assoc a (l.map fun e => (e.1, g e.2)) = (assoc a l).map g := by
  induction l with
  | nil => rfl
  | cons e l ih =>
    by_cases head : e.1 = a
    · rw [List.map_cons, assoc, assoc, if_pos head, if_pos head, Option.map_some]
    · rw [List.map_cons, assoc, assoc, if_neg head, if_neg head, ih]

section
variable {p : Params} (hl : p.layouts = specLayouts) {k : Kind} {l : List (Field × Nat)}
include hl

/-- An element has the fields of its kind's table with the values at their places. -/
theorem elementHas_of_table {b : List Byte}
    (values : ((specLayouts.get k).fields.map fun e => (e.1, unpackField b e.2)) = l) : ElementHas p k b l := by
  intro f
  rw [← values, assoc_map, unpackKind, Params.fieldOf, Params.layout, hl]

/-- An element of one byte. -/
theorem elementHas_byte {b : Byte}
    (values : ((specLayouts.get k).fields.map fun e => (e.1, getBits b.toNat e.2.lo e.2.width)) = l) :
    ElementHas p k [b] l :=
  elementHas_of_table hl values

end

/-- Settles O43: (a) from the spec's tables, (b) to (e) from what every valid layout gives. -/
theorem elementRoundTrip : Obligations.ElementRoundTrip := by
  refine ⟨fun p b0 b1 b2 b3 b4 hl => ⟨?siq, ?diq, ?qds, ?vti, ?bsi, ?nva, ?sva, ?r32, ?bcr, ?sep, ?cp16, ?spe, ?qdp,
      ?oci, ?scd, ?coi, ?sco, ?dco, ?rco, ?qos⟩,
    fun p k hp => ⟨fun b => Params.valid_bit hp k, fun bs => packKind_unpackKind hp, fun r => ⟨fun fits => ?packs,
      fun ⟨f, b, field, wide⟩ => packKind_refused hp field wide⟩⟩⟩
  case packs =>
    have packed := packKind_of_fits ((fieldsFit_layout_iff hp).mpr fits)
    exact ⟨_, packed, packKind_length packed, fun f b => unpackKind_of_packKind hp packed⟩
  case siq | diq | qds | vti | sep | spe | qdp | oci | coi | sco | dco | rco | qos =>
    refine elementHas_byte hl ?_
    simp only [specLayouts, Layouts.get, getBits, List.map_cons, List.map_nil, List.cons.injEq, Prod.mk.injEq, true_and,
      and_true]
    omega
  case bsi | nva | sva | r32 | bcr | cp16 | scd =>
    refine elementHas_of_table hl ?_
    simp only [specLayouts, Layouts.get, unpackField, getBits, leNat, List.map_cons, List.map_nil, List.cons.injEq,
      Prod.mk.injEq, true_and, and_true]
    omega

end Sys2Proof.Machine
end

section
/-! PROOFS. The normalized value (spec/42_elements.md R156): two's complement in its two halves and its range (R9), and
the fraction, which is in the order of the readings. -/

namespace Sys2Proof.Machine

/-! ## Two's complement (R9) -/

theorem sint_of_lt {n v : Nat} (h : v < 2 ^ n) : sint (n + 1) v = v := if_pos h

theorem sint_of_le {n v : Nat} (h : 2 ^ n ≤ v) : sint (n + 1) v = v - 2 ^ (n + 1) := if_neg h.not_gt

theorem sint_range {n v : Nat} (h : v < 2 ^ (n + 1)) : -2 ^ n ≤ sint (n + 1) v ∧ sint (n + 1) v < 2 ^ n := by
  have above : (v : Int) < 2 ^ (n + 1) := mod_cast h
  rw [pow_succ] at above
  rcases Nat.lt_or_ge v (2 ^ n) with low | high
  · have below : (v : Int) < 2 ^ n := mod_cast low
    rw [sint_of_lt low]
    omega
  · have atLeast : (2 : Int) ^ n ≤ v := mod_cast high
    rw [sint_of_le high, pow_succ]
    omega

/-! ## The fraction (R156) -/

/-- The fractions are in the order of the two's complement readings. -/
theorem nvaFraction_le_iff {a b : Nat} : nvaFraction a ≤ nvaFraction b ↔ sint 16 a ≤ sint 16 b := by
  rw [nvaFraction, nvaFraction, div_le_div_iff_of_pos_right (by norm_num), Int.cast_le]

theorem nvaFraction_of_lt {raw : Nat} (h : raw < 2 ^ 15) : nvaFraction raw = raw / 32768 := by
  rw [nvaFraction, sint_of_lt h, Int.cast_natCast]

theorem nvaFraction_least : nvaFraction 0x8000 = -1 := by
  rw [nvaFraction, sint_of_le (by norm_num)]
  norm_num

theorem nvaFraction_greatest : nvaFraction 0x7FFF = 32767 / 32768 := by
  rw [nvaFraction_of_lt (by norm_num)]
  norm_num

/-- Settles O46: 8000 and 7FFF read as the two ends of the range of a 16-bit two's complement number, and the fraction
keeps the order. -/
theorem normalizedValueRange : Obligations.NormalizedValueRange := by
  refine ⟨?zero, nvaFraction_least, nvaFraction_greatest, fun raw h => ?range⟩
  case zero => rw [nvaFraction_of_lt (by norm_num), Nat.cast_zero, zero_div]
  case range =>
    obtain ⟨least, greatest⟩ := sint_range (n := 15) h
    have lower : nvaFraction 0x8000 ≤ nvaFraction raw := nvaFraction_le_iff.mpr least
    have upper : nvaFraction raw ≤ nvaFraction 0x7FFF := nvaFraction_le_iff.mpr (Int.le_sub_one_of_lt greatest)
    have belowOne : nvaFraction 0x7FFF < 1 := by
      rw [nvaFraction_greatest]
      norm_num
    exact ⟨nvaFraction_least ▸ lower, upper, upper.trans_lt belowOne⟩

end Sys2Proof.Machine
end

section
/-! PROOFS. The ASDU codec and its dispatch (spec/43_asdu_dispatch.md R181 to R192): the decoder's answer at the ASDU
level, `dec_asdu` as what the decoded row runs, the header's bytes and fields, and the two ASDU commands. -/

namespace Sys2Proof

/-! ## IllegalSequenceMode at the ASDU level (R94, R189) -/

/-- The decoder refuses SQ exactly when it is 1 and the type's row is sequence-illegal, whatever the registry. -/
theorem decodeTypeWord_illegal_iff {rs : List Row} {ti vsq : Byte} :
    decodeTypeWord rs ti vsq = .error .illegalSequenceMode ↔
      vsqSq vsq = 1 ∧ ∃ row, findRow ti rs = some row ∧ row.seqLegal = false := by
  constructor
  · intro h
    unfold decodeTypeWord at h
    repeat' split at h
    case h_2.isTrue row found refused =>
      obtain ⟨hq, illegal⟩ := refused
      exact ⟨hq, row, found, illegal⟩
    all_goals cases h
  · rintro ⟨hq, row, found, illegal⟩
    exact decodeTypeWord_of_illegal found hq illegal

/-- The sequence-illegal types of the spec's table (R220). -/
theorem specRegistry_illegal_iff (ti : Byte) :
    (∃ row, findRow ti specRegistry = some row ∧ row.seqLegal = false) ↔
      ti.toNat ∈ [2, 4, 6, 8, 10, 12, 14, 16, 17, 18, 19, 30, 31, 32, 33, 34, 35, 36, 37, 38, 39, 40, 45, 46, 47,
        48, 49, 50, 51, 70] := by
  have column := Params.lookup_test_iff specParams_valid ti fun row => !row.seqLegal
  simp only [Bool.not_eq_true'] at column
  exact column

/-- Settles O6: the refusal is one branch of the decoder, and the thirty are the rows that take it. -/
theorem illegalSequencePairs : Obligations.IllegalSequencePairs := by
  intro ti vsq rest
  rw [decode_asdu_cons, decodeTypeWord_illegal_iff, specRegistry_illegal_iff]

end Sys2Proof

namespace Sys2Proof.Machine

/-! ## `dec_asdu` is what the decoded row runs (R184) -/

/-- The word is the first two bytes. -/
theorem decodeAsduWord_eq {w : List Byte} (hw : 2 ≤ w.length) (rs : List Row) :
    decodeAsduWord rs w = decodeTypeWord rs (byteAt w 0) (byteAt w 1) := by
  match w, hw with
  | _ :: _ :: _, _ => rfl

theorem asduWord_of_decodeAsduWord {rs : List Row} {w : List Byte} {i : Instr} (h : decodeAsduWord rs w = .ok i) :
    i.asduWord = some (byteAt w 0, byteAt w 1) := by
  match w, h with
  | _ :: _ :: _, h => exact asduWord_of_typeInstr (typeInstr_of_decodeTypeWord h)

/-- What the decoded row runs has the tests of `dec_asdu` itself, so the two agree on any bytes that decode. -/
theorem decAsdu_of_decodeAsduWord {p : Params} {w : List Byte} {i : Instr}
    (h : decodeAsduWord p.registry w = .ok i) (a : Nat) : decAsdu p a w = decAsduInstr p i a w := by
  by_cases short : w.length < 4
  · rw [decAsduInstr_of_word (asduWord_of_decodeAsduWord h), decTyped_of_short short, decAsdu, if_pos short]
  have long := Nat.not_lt.mp short
  by_cases zero : vsqNum (byteAt w 1) = 0
  · rw [decAsduInstr_of_word (asduWord_of_decodeAsduWord h), zero, decTyped_of_zero long, decAsdu, if_neg short,
      if_pos zero]
  · simp only [decAsdu, if_neg short, if_neg zero, h]

/-- Settles O19: under parameters that R6 allows `dec_asdu` is the decode of the type its first byte names, with the
fields of the second, and that decode is the ten steps. -/
theorem decAsduIsR184 : Obligations.DecAsduIsR184 := by
  intro p a w hp
  rw [decAsdu_eq_decTyped hp, decTyped]
  rfl

/-! ## A START of DEC_ASDU (R270, R273) -/

/-- An ASDU-level decode is decided by what its function answers on the bytes of WIRE. -/
theorem decodeAsduOp_congr {f g : List Byte → Except CodecErr Asdu} {s : State} {w : List Byte}
    (read : readWire s = some w) (h : f w = g w) : decodeAsduOp f s = decodeAsduOp g s := by
  simp only [decodeAsduOp, read, h]

/-- DEC_ASDU runs the ASDU-level row that the first two bytes of WIRE select (R184). -/
theorem exec_decAsdu_of_decodeAsduWord {s : State} {w : List Byte} {i : Instr} (read : readWire s = some w)
    (h : decodeAsduWord s.par.registry w = .ok i) : exec .decAsdu s = exec i (s.setCmd 2) := by
  rw [exec_decAsdu, exec_of_asdu (decodeAsduWord_ok h).1]
  exact decodeAsduOp_congr read (decAsdu_of_decodeAsduWord h 0)

/-- Settles O9: the bytes of WIRE are what the decode is given, and DEC_ASDU dispatches on them with the decoder. -/
theorem startDecAsduRunsType : Obligations.StartDecAsduRunsType := by
  intro s rest i pending inWire decoded
  have read : readWire (s.setPending rest) = some ((List.range s.wlen.toNat).map s.byte) := by
    rw [readWire_setPending, readWire_of_le inWire, readBytes_eq_map_byte]
  have run : step s = exec .decAsdu (s.setPending rest) := by simp only [step, pending]; rfl
  rw [run, exec_decAsdu_of_decodeAsduWord read decoded]
  rfl

/-- Settles O22: the word is one that the row allows, so it decodes, and what the decoded row loads is known. -/
theorem decAsduDecodes : Obligations.DecAsduDecodes := by
  intro s row hp found hn legal size
  have inWire : s.wlen.toNat ≤ s.par.bufsz := by
    have := objsSize_le (vsqSq (s.byte 1)) (vsqNum (s.byte 1)) (Params.valid_gsize hp found).2
    have := (Params.valid_bufsz hp).1
    rw [← objsSize_eq_listBytes] at size
    omega
  have read := readWire_of_le inWire
  have length := readWire_length read
  have allowed : vsqSq (s.byte 1) = 0 ∨ row.seqLegal = true := (BitVec.eq_zero_or_eq_one _).imp_right legal
  obtain ⟨i, hi⟩ :=
    Option.isSome_iff_exists.mp (typeInstr_isSome (Params.mem_typeIds_of_lookup hp found) (s.byte 1))
  have decoded := decodeTypeWord_of_legal found allowed hi
  rw [← readWire_byte read (k := 0) (by omega), ← readWire_byte read (k := 1) (by omega),
    ← decodeAsduWord_eq (by omega)] at decoded
  rw [exec_decAsdu_of_decodeAsduWord read decoded]
  exact exec_asduWord_loads (s := s.setCmd 2) (asduWord_of_typeInstr hi) hp found hn legal size

/-! ## The header (R181) -/

theorem mkVsq_toNat (sq : Bit) (num : BitVec 7) : (mkVsq sq num).toNat = 128 * sq.toNat + num.toNat :=
  append_toNat sq num

theorem mkCotb_toNat (test neg : Bit) (cot : BitVec 6) :
    (mkCotb test neg cot).toNat = 128 * test.toNat + 64 * neg.toNat + cot.toNat := by
  rw [mkCotb, append_toNat, append_toNat]
  omega

/-- What `dec_asdu` accepts is accepted by the decode of the type that the first byte names, whatever the parameters. -/
theorem decTyped_of_decAsdu_ok {p : Params} {a : Nat} {w : List Byte} {d : Asdu} (h : decAsdu p a w = .ok d) :
    decTyped p (byteAt w 0) (vsqSq (byteAt w 1)) (vsqNum (byteAt w 1)) a w = .ok d := by
  cases decoded : decodeAsduWord p.registry w with
  | error e =>
    simp only [decAsdu, decoded] at h
    repeat' split at h
    all_goals cases h
  | ok i => rwa [decAsdu_of_decodeAsduWord decoded, decAsduInstr_of_word (asduWord_of_decodeAsduWord decoded)] at h

/-- Settles O41: the decode takes the fields from the four bytes, and packing them again gives those bytes. -/
theorem headerFields : Obligations.HeaderFields := by
  refine ⟨fun p a w d ok => ?unpack, mkVsq_vsqSq_vsqNum, mkCotb_fields, mkVsq_toNat, mkCotb_toNat⟩
  case unpack =>
    obtain ⟨_, _, _, _, _, rfl⟩ := decTyped_ok (decTyped_of_decAsdu_ok ok)
    exact ⟨rfl, rfl, rfl, rfl, rfl, rfl, rfl, fun r => ⟨rfl, mkVsq_vsqSq_vsqNum _, mkCotb_fields _, rfl⟩⟩

/-! ## ENC_ASDU (R190, R274) -/

theorem exec_encAsdu_of_ok {s : State} {b : List Byte} (h : encAsdu s.par s.regs s.slots = .ok b) :
    exec .encAsdu s = .next (storeWire (s.setCmd 3) b 0) := by
  rw [exec_encAsdu, h]
  rfl

/-- Settles O25: a legal header is sent with its objects, and its bytes fit in WIRE. -/
theorem encAsduEncodes : Obligations.EncAsduEncodes := by
  intro s row hp wf found hn legal
  have hg := (Params.valid_gsize hp found).2
  have sent := encAsdu_of_legal found hn legal s.slots
  generalize bytes_eq : [s.regs.ti, s.regs.vsq, s.regs.cotb, s.regs.ca] ++
    encObjs (s.par.gsize row) (vsqSq s.regs.vsq) (vsqNum s.regs.vsq) s.slots = b at sent
  have length : b.length = 4 + objsSize (s.par.gsize row) (vsqSq s.regs.vsq) (vsqNum s.regs.vsq) := by
    rw [← bytes_eq, List.length_append, encObjs_length _ _ _ _ hg]; rfl
  have short := encAsdu_length hp sent
  have room := (Params.valid_bufsz hp).1
  have wire := storeWire_read (s := s.setCmd 3) (c := 0) wf (show b.length ≤ s.par.bufsz by omega)
  have wlen : (storeWire (s.setCmd 3) b 0).wlen.toNat = b.length := storeWire_wlen_toNat (by omega)
  refine ⟨_, exec_encAsdu_of_ok sent, ⟨rfl, rfl, rfl, rfl, rfl⟩, rfl, ?size, ?written, fun k hk => ?kept, rfl⟩
  case size => rw [wlen, length, objsSize_eq_listBytes]
  case written =>
    refine asduWritten_of_bytes hg fun k hk => ?_
    rw [bytes_eq, Nat.zero_add]
    exact (wire k).trans (if_pos (length ▸ hk))
  case kept => exact (wire k).trans (if_neg (Nat.not_lt.mpr (wlen ▸ hk)))

/-! ## Round trip (R192) -/

/-- Settles O49: a decoded ASDU, loaded, is its own view, from which the encode sends its bytes; and what an encode
sends is decoded to the view it was sent from. -/
theorem asduRoundTrip : Obligations.AsduRoundTrip := by
  intro p hp
  refine ⟨fun a w d r v decoded => ?decoded, fun r r' v v' b sent => ?sent⟩
  case decoded =>
    exact (encAsdu_eq_encode_view (viewAsdu_of_decAsdu hp decoded r v)).trans (encode_of_decAsdu hp decoded)
  case sent =>
    obtain ⟨d, decoded, viewed⟩ := decAsdu_of_encAsdu hp sent 0
    exact ⟨d, decoded, viewed, (viewAsdu_of_decAsdu hp decoded r' v').trans viewed.symm⟩

end Sys2Proof.Machine
end

section
/-! PROOFS. Host steps and runs (spec/46_host_operations.md R270, R275, R279; spec/70_reset_and_hazards.md R332, R343):
what a step runs, and that no step stops in a state that satisfies the invariant. -/

namespace Sys2Proof.Machine

/-! ## The step of each kind of host action (R279) -/

theorem step_idle {s : State} (h : s.pending = []) : step s = .next s := by
  simp only [step, h]

theorem step_start {s : State} {op : BitVec 2} {rest : List HostAction} (h : s.pending = .start op :: rest) :
    step s = exec (decodeCmd op) (s.setPending rest) := by
  simp only [step, h]

theorem step_access {s : State} {a : Access} {rest : List HostAction} (h : s.pending = .access a :: rest) :
    step s = .next (applyAccess a (s.setPending rest)) := by
  simp only [step, h]

/-- The byte that holds CMD.OP decodes to the command of that OP (R94, R270). -/
theorem decode_cmd_of_op (rs : List Row) (op : BitVec 2) :
    decode rs .cmd [op.setWidth 8] = .ok (decodeCmd op) := by
  rw [← encode_decodeCmd, ← List.append_nil (encode _)]
  exact decodeCmdByte_encode (decodeCmd_level op) []

theorem wellFormed_of_cmd {i : Instr} (h : i.level = .cmd) (rs : List Row) : i.wellFormed rs = true := by
  cases i <;> cases h <;> rfl

/-- Settles O7: one equation of the step for each form of the list of host steps to come. -/
theorem stepRunsHostStep : Obligations.StepRunsHostStep := by
  refine ⟨fun s op rest pending => ?start, fun s a rest => step_access, fun s => step_idle⟩
  have level := decodeCmd_level op
  exact ⟨decodeCmd op, decode_cmd_of_op _ op, wellFormed_of_cmd level _, level, step_start pending⟩

/-! ## Every step goes on (R270, R343) -/

/-- A decode stops only when WLEN is above BUFSZ (R22). -/
theorem decodeFrameOp_completes {s : State} (inWire : s.wlen.toNat ≤ s.par.bufsz)
    (f : BitVec 2 → List Byte → Except CodecErr FrameResult) : ∃ t, decodeFrameOp f s = .next t := by
  rcases decodeFrameOp_cases f s with ⟨unread, _⟩ | ⟨_, _, _, _, h⟩ | ⟨_, _, _, _, h⟩
  · rw [readWire_of_le inWire] at unread; cases unread
  · exact ⟨_, h⟩
  · exact ⟨_, h⟩

theorem decodeAsduOp_completes {s : State} (inWire : s.wlen.toNat ≤ s.par.bufsz)
    (f : List Byte → Except CodecErr Asdu) : ∃ t, decodeAsduOp f s = .next t := by
  rcases decodeAsduOp_cases f s with ⟨unread, _⟩ | ⟨_, _, _, _, h⟩ | ⟨_, _, _, _, h⟩
  · rw [readWire_of_le inWire] at unread; cases unread
  · exact ⟨_, h⟩
  · exact ⟨_, h⟩

theorem exec_cmd_completes {i : Instr} (h : i.level = .cmd) {s : State} (inWire : s.wlen.toNat ≤ s.par.bufsz) :
    ∃ t, exec i s = .next t := by
  cases i <;> cases h
  case decFrame => exact decodeFrameOp_completes (s := s.setCmd 0) inWire _
  case decAsdu => exact decodeAsduOp_completes (s := s.setCmd 2) inWire _
  case encFrame => exact ⟨_, exec_encFrame s⟩
  case encAsdu => exact ⟨_, exec_encAsdu s⟩

/-- In a state that satisfies the invariant the host's next step, if any, has its effect. -/
theorem Inv.completes {s : State} (hs : Inv s) : Completes s := by
  rcases pending : s.pending with _ | ⟨op | a, rest⟩
  · exact ⟨s, step_idle pending⟩
  · rw [Completes, step_start pending]
    exact exec_cmd_completes (decodeCmd_level op) (hs.setPending rest).wlen
  · exact ⟨_, step_access pending⟩

/-- Settles O55: by induction on the length of the run; a step goes on under the invariant, which it keeps. -/
theorem runsForever : Obligations.RunsForever := by
  intro k
  induction k with
  | zero => exact fun _ _ => trivial
  | succ k ih =>
    intro s hs
    obtain ⟨t, run⟩ := hs.completes
    exact ⟨t, run, ih t ((stepKeepsInv s t run).1 hs)⟩

end Sys2Proof.Machine
end

section
/-! PROOFS. STATUS after an operation (spec/46_host_operations.md R278; spec/60_exceptions.md R290, R291): every
instruction ends with one of the two forms that the engine writes. -/

namespace Sys2Proof.Machine

/-! ## The two forms of STATUS -/

/-- STATUS as an operation leaves it: OK, with CSERR 0 where plain holds, or an error at a position up to n. -/
def Status.Ends (plain : Prop) (n : Nat) (x : Status) : Prop :=
  (∃ c, x = statusOk c ∧ (plain → c = 0)) ∨ ∃ e p, x = statusErr e p ∧ p ≤ n

section
variable {plain : Prop} {n : Nat} {x : Status} (h : x.Ends plain n)
include h

theorem Status.Ends.st : x.st = 1 ∨ x.st = 2 := by
  rcases h with ⟨c, rfl, _⟩ | ⟨e, p, rfl, _⟩
  · exact .inl rfl
  · exact .inr rfl

theorem Status.Ends.of_ok (ok : x.st = 1) : x.err = 0 ∧ x.errpos = 0 ∧ (plain → x.cserr = 0) := by
  rcases h with ⟨c, rfl, cserr⟩ | ⟨e, p, rfl, _⟩
  · exact ⟨rfl, rfl, cserr⟩
  · exact absurd ok (show (2 : BitVec 2) ≠ 1 by decide)

theorem Status.Ends.of_err (err : x.st = 2) :
    1 ≤ x.err.toNat ∧ x.err.toNat ≤ 8 ∧ (x.cserr = 1 ↔ x.err = 8) := by
  rcases h with ⟨c, rfl, _⟩ | ⟨e, p, rfl, _⟩
  · exact absurd err (show (1 : BitVec 2) ≠ 2 by decide)
  · obtain ⟨le, ne, mismatch⟩ := e.code_bounds
    refine ⟨Nat.pos_of_ne_zero fun zero => ne (BitVec.eq_of_toNat_eq zero), le, ?_⟩
    rw [statusErr_cserr, statusErr_err, ← mismatch]
    split <;> simp_all

theorem Status.Ends.errpos_le : x.errpos.toNat ≤ n := by
  rcases h with ⟨c, rfl, _⟩ | ⟨e, p, rfl, le⟩
  · exact Nat.zero_le n
  · exact (BitVec.toNat_ofNat p 12 ▸ Nat.mod_le _ _).trans le

end

/-! ## How each operation ends -/

theorem decodeFrameOp_ends {f : BitVec 2 → List Byte → Except CodecErr FrameResult} {s t : State} {plain : Prop}
    (h : decodeFrameOp f s = .next t) (pos : ∀ w e, f s.cfg.csmode w = .error e → e.pos ≤ w.length)
    (cserr : ∀ w x, f s.cfg.csmode w = .ok x → t.regs = frameRegs x.frame x.len → plain → x.cserr = 0) :
    t.status.Ends plain s.wlen.toNat := by
  obtain ⟨w, read, ⟨x, ok, rfl⟩ | ⟨e, error, rfl⟩⟩ := decodeFrameOp_next h
  · exact .inl ⟨x.cserr, rfl, cserr w x ok rfl⟩
  · exact .inr ⟨e.kind, e.pos, rfl, readWire_length read ▸ pos w e error⟩

theorem decodeAsduOp_ends {f : List Byte → Except CodecErr Asdu} {s t : State} (plain : Prop)
    (h : decodeAsduOp f s = .next t) (pos : ∀ w e, f w = .error e → e.pos ≤ w.length) :
    t.status.Ends plain s.wlen.toNat := by
  obtain ⟨w, read, ⟨a, _, rfl⟩ | ⟨e, error, rfl⟩⟩ := decodeAsduOp_next h
  · exact .inl ⟨0, rfl, fun _ => rfl⟩
  · exact .inr ⟨e.kind, e.pos, rfl, readWire_length read ▸ pos w e error⟩

theorem encodeOp_ends {r : Except CodecErr (List Byte × Bit)} (s : State) {plain : Prop}
    (cserr : ∀ b c, r = .ok (b, c) → plain → c = 0) : (encodeOp r s).status.Ends plain 0 := by
  rcases encodeOp_cases r s with ⟨b, c, ok, h⟩ | ⟨e, _, h⟩ <;> rw [h]
  · exact .inl ⟨c, rfl, cserr b c ok⟩
  · exact .inr ⟨e.kind, 0, rfl, Nat.le_refl 0⟩

/-! ## Positions and CSERR of the decodes that one row runs -/

theorem nonEmpty_decLinkInstr_pos {p : Params} {i : Instr} {m : BitVec 2} {w : List Byte} {e : CodecErr}
    (h : nonEmpty (decLinkInstr p i) m w = .error e) : e.pos ≤ w.length := by
  unfold nonEmpty at h
  split at h
  · cases h; exact Nat.zero_le _
  · exact decLinkInstr_pos h

theorem decAsduInstr_pos {p : Params} {i : Instr} {a : Nat} {w : List Byte} {e : CodecErr}
    (h : decAsduInstr p i a w = .error e) : e.pos ≤ a + w.length := by
  cases word : i.asduWord with
  | none => rw [decAsduInstr_of_no_word word] at h; cases h; exact Nat.le_add_right a _
  | some word' => exact decTyped_pos (decAsduInstr_of_word word p a w ▸ h)

/-- A single character has no checksum (R110). -/
theorem decSingle_cserr {neg : Bit} {w : List Byte} {x : FrameResult} (h : decSingle neg w = .ok x) :
    x.cserr = 0 := by
  unfold decSingle at h
  split at h <;> cases h
  rfl

/-- Only a single character is loaded with KIND 1 (R271). -/
theorem decLinkInstr_single_cserr {p : Params} {i : Instr} {m : BitVec 2} {w : List Byte} {x : FrameResult}
    (h : decLinkInstr p i m w = .ok x) (kind : (frameRegs x.frame x.len).kind = 1) : x.cserr = 0 := by
  cases i
  case ack => exact decSingle_cserr h
  case nack => exact decSingle_cserr h
  case fixedFrame =>
    obtain ⟨_, _, rfl⟩ := decFixed_ok_iff.mp h
    exact absurd kind (show (2 : BitVec 3) ≠ 1 by decide)
  case variableFrame =>
    obtain ⟨_, asdu, _, _, _, rfl⟩ := decVariable_ok h
    cases asdu <;> exact absurd kind (show (3 : BitVec 3) ≠ 1 by decide)
  all_goals cases h

theorem nonEmpty_decLinkInstr_single_cserr {p : Params} {i : Instr} {m : BitVec 2} {w : List Byte} {x : FrameResult}
    (h : nonEmpty (decLinkInstr p i) m w = .ok x) (kind : (frameRegs x.frame x.len).kind = 1) : x.cserr = 0 := by
  unfold nonEmpty at h
  split at h
  · cases h
  · exact decLinkInstr_single_cserr h kind

theorem decFrame_single_cserr {p : Params} {m : BitVec 2} {w : List Byte} {x : FrameResult}
    (h : decFrame p m w = .ok x) (kind : (frameRegs x.frame x.len).kind = 1) : x.cserr = 0 := by
  unfold decFrame at h
  split at h
  · cases h
  · exact decLinkInstr_single_cserr h kind

/-! ## How each instruction ends -/

/-- The operations that R278 says report no checksum: a single character's, and the ASDU ones. -/
def ReportsNoChecksum (i : Instr) (s t : State) : Prop :=
  (Decodes i ∧ t.regs.kind = 1) ∨ (i = .encFrame ∧ s.regs.kind = 1) ∨ i = .encAsdu ∨ i.level = .asdu ∨ i = .decAsdu

/-- Of the link-level decodes only a single character's reports no checksum. -/
theorem ReportsNoChecksum.kind {i : Instr} {s t : State} (h : ReportsNoChecksum i s t)
    (link : i.level = .link ∨ i = .decFrame) : t.regs.kind = 1 := by
  rcases h with ⟨_, kind⟩ | ⟨rfl, _⟩ | rfl | asdu | rfl
  case inl => exact kind
  case inr.inr.inr.inl =>
    rcases link with level | rfl
    · rw [asdu] at level; cases level
    · cases asdu
  all_goals rcases link with level | same <;> contradiction

theorem exec_ends_of_decodes {i : Instr} {s t : State} (hi : Decodes i) (h : exec i s = .next t) :
    t.status.Ends (ReportsNoChecksum i s t) s.wlen.toNat := by
  rcases hi with level | rfl | rfl
  case inl =>
    cases hl : i.level with
    | link =>
      rw [exec_of_link hl] at h
      exact decodeFrameOp_ends h (fun _ _ => nonEmpty_decLinkInstr_pos) fun _ _ ok regs plain =>
        nonEmpty_decLinkInstr_single_cserr ok (regs ▸ plain.kind (.inl hl))
    | asdu =>
      rw [exec_of_asdu hl] at h
      exact decodeAsduOp_ends _ h fun w _ error => Nat.zero_add w.length ▸ decAsduInstr_pos error
    | cmd => exact absurd hl level
  case inr.inl =>
    exact decodeFrameOp_ends (s := s.setCmd 0) h (fun _ _ => decFrame_pos) fun _ _ ok regs plain =>
      decFrame_single_cserr ok (regs ▸ plain.kind (.inr rfl))
  case inr.inr =>
    exact decodeAsduOp_ends (s := s.setCmd 2) _ h fun w _ error => Nat.zero_add w.length ▸ decAsdu_pos error

/-- The instructions that do not decode are the two encodes. -/
theorem eq_encode_of_not_decodes {i : Instr} (h : ¬ Decodes i) : i = .encFrame ∨ i = .encAsdu := by
  have level : i.level = .cmd := not_not.mp fun ne => h (.inl ne)
  cases i <;> cases level
  case decFrame => exact absurd (.inr (.inl rfl)) h
  case decAsdu => exact absurd (.inr (.inr rfl)) h
  case encFrame => exact .inl rfl
  case encAsdu => exact .inr rfl

/-- ENC_ASDU's bytes are sent with CSERR 0 (R274). -/
theorem bareResult_cserr {r : Except CodecErr (List Byte)} {b : List Byte} {c : Bit} (h : bareResult r = .ok (b, c)) :
    c = 0 := by
  cases r <;> cases h
  rfl

theorem exec_ends_of_encodes {i : Instr} {s t : State} (hi : ¬ Decodes i) (h : exec i s = .next t) :
    t.status.Ends (ReportsNoChecksum i s t) 0 := by
  rcases eq_encode_of_not_decodes hi with rfl | rfl <;> cases h
  case inl =>
    refine encodeOp_ends _ fun b c sent plain => ?_
    rcases plain with ⟨decodes, _⟩ | ⟨_, kind⟩ | same | level | same
    case inr.inl => rw [encFrame_single kind] at sent; cases sent; rfl
    case inl => exact absurd decodes hi
    all_goals contradiction
  case inr => exact encodeOp_ends _ fun b c sent _ => bareResult_cserr sent

/-- A host access leaves STATUS as it was, or is RESET (R25, R275). -/
theorem applyAccess_status {a : Access} (h : ∀ w l, a ≠ .reset w l) (s : State) :
    (applyAccess a s).status = s.status := by
  rcases applyAccess_cases a s with e | ⟨_, _, _, _, _, e⟩ | ⟨_, _, _, e⟩ | ⟨_, _, e⟩ | ⟨_, e⟩ | ⟨_, e⟩ |
    ⟨w, l, reset, _⟩
  case inr.inr.inr.inr.inr.inr => exact absurd reset (h w l)
  all_goals exact (congrArg State.status e).trans rfl

/-- Settles O29: a decode ends with a position in the bytes it was given, an encode with none, and both with one of the
two forms of STATUS. -/
theorem statusRules : Obligations.StatusRules := by
  refine ⟨fun i s t run => ?exec, fun a s notReset => applyAccess_status notReset s⟩
  by_cases hi : Decodes i
  · have h := exec_ends_of_decodes hi run
    exact ⟨h.st, h.of_ok, h.of_err, fun _ => h.errpos_le, fun encodes => absurd hi encodes⟩
  · have h := exec_ends_of_encodes hi run
    exact ⟨h.st, h.of_ok, h.of_err, fun decodes => absurd decodes hi,
      fun _ => BitVec.eq_of_toNat_eq (Nat.le_zero.mp h.errpos_le)⟩

end Sys2Proof.Machine
end

section
/-! PROOFS. The laws between the commands (spec/46_host_operations.md R280): what an encode makes of the record that a
decode has left. -/

namespace Sys2Proof.Machine

/-! ## The state a decode command leaves, by ST -/

/-- A DEC_FRAME that ends with OK has loaded its frame (R271). -/
theorem exec_decFrame_ok {s t : State} (h : exec .decFrame s = .next t) (ok : t.status.st = 1) :
    ∃ w x, readWire s = some w ∧ decFrame s.par s.cfg.csmode w = .ok x ∧ t = loadFrame (s.setCmd 0) x := by
  rw [exec_decFrame] at h
  obtain ⟨w, read, ⟨x, decoded, rfl⟩ | ⟨e, _, rfl⟩⟩ := decodeFrameOp_next h
  · exact ⟨w, x, read, decoded, rfl⟩
  · exact absurd ok (show (2 : BitVec 2) ≠ 1 by decide)

/-- A DEC_ASDU that ends with OK has left KIND 4 (R273). -/
theorem exec_decAsdu_ok_kind {s t : State} (h : exec .decAsdu s = .next t) (ok : t.status.st = 1) :
    t.regs.kind = 4 := by
  rw [exec_decAsdu] at h
  obtain ⟨w, _, ⟨a, _, rfl⟩ | ⟨e, _, rfl⟩⟩ := decodeAsduOp_next h
  · rfl
  · exact absurd ok (show (2 : BitVec 2) ≠ 1 by decide)

/-- A decode command that ends with ERR has left every scalar register 0 (R300). -/
theorem decode_err_regs {s t : State} (h : exec .decFrame s = .next t ∨ exec .decAsdu s = .next t)
    (err : t.status.st = 2) : t.regs = Regs.zero := by
  have notOk : (1 : BitVec 2) ≠ 2 := by decide
  rcases h with h | h
  · rw [exec_decFrame] at h
    obtain ⟨w, _, ⟨x, _, rfl⟩ | ⟨e, _, rfl⟩⟩ := decodeFrameOp_next h
    · exact absurd err notOk
    · rfl
  · rw [exec_decAsdu] at h
    obtain ⟨w, _, ⟨a, _, rfl⟩ | ⟨e, _, rfl⟩⟩ := decodeAsduOp_next h
    · exact absurd err notOk
    · rfl

/-! ## The encode that follows -/

theorem failsEncode_of_encAsdu {s : State} {e : CodecErr} (h : encAsdu s.par s.regs s.slots = .error e) :
    FailsEncode .encAsdu s 3 e.kind.code := by
  rw [FailsEncode, exec_encAsdu, ← failEncode_setCmd, h]
  rfl

/-- ENC_FRAME has no frame to send from a record of KIND 0 or 4 (R121). -/
theorem failsEncode_noFrame {s : State} (hk : s.regs.kind = 0 ∨ s.regs.kind = 4) : FailsEncode .encFrame s 1 1 :=
  failsEncode_of_encFrame (e := ⟨.unknownFrameStart, 0⟩) (encFrame_noFrame hk)

theorem failsEncode_numZero {s : State} (h : vsqNum s.regs.vsq = 0) : FailsEncode .encAsdu s 3 7 :=
  failsEncode_of_encAsdu (e := ⟨.vsqNumberZero, 0⟩) (if_pos h)

/-- What ENC_ASDU leaves in WIRE and WLEN when the ASDU can be sent (R274). -/
theorem exec_encAsdu_sent {s : State} (hp : s.par.valid = true) (wf : Memory.wf s.par.bufsz s.wire = true)
    {b : List Byte} (h : encAsdu s.par s.regs s.slots = .ok b) :
    ∃ t, exec .encAsdu s = .next t ∧ t.status = statusOk 0 ∧ t.wlen.toNat = b.length ∧
      ∀ k, k < b.length → t.byte k = byteAt b k := by
  have short := encAsdu_length hp h
  have room := (Params.valid_bufsz hp).1
  have wire := storeWire_read (s := s.setCmd 3) (c := 0) wf (show b.length ≤ s.par.bufsz by omega)
  exact ⟨_, exec_encAsdu_of_ok h, rfl, storeWire_wlen_toNat (by omega), fun k hk => (wire k).trans (if_pos hk)⟩

/-- A loaded frame that carries an ASDU is a variable frame, from whose record `enc_asdu` sends its payload (R117,
R192). -/
theorem encAsdu_of_decFrame {p : Params} (hp : p.valid = true) {m : BitVec 2} {w : List Byte} {x : FrameResult}
    (h : decFrame p m w = .ok x) (has : (frameRegs x.frame x.len).hasasdu = 1) (v : Vector Slot Config.nslot) :
    ∃ L, IsVariable w L ∧
      encAsdu p (frameRegs x.frame x.len) (frameSlots v x.frame) = .ok (slice w 6 (L + 4)) := by
  have zero : ¬ (0 : Bit) = 1 := by decide
  rcases decFrame_ok h with ⟨neg, _, rfl⟩ | ⟨_, accepted⟩ | ⟨_, accepted⟩
  · exact absurd has zero
  · obtain ⟨_, _, rfl⟩ := decFixed_ok_iff.mp accepted
    exact absurd has zero
  · obtain ⟨L, asdu, form, _, payload, rfl⟩ := decVariable_ok accepted
    rcases decPayload_ok payload with ⟨_, rfl⟩ | ⟨_, d, decoded, rfl⟩
    · exact absurd has zero
    · exact ⟨L, form, (encAsdu_eq_encode_view (viewAsdu_of_decAsdu hp decoded _ v)).trans
        (encode_of_decAsdu hp decoded)⟩

/-- A loaded frame is sent with CSGEN = 0 as the bytes it came from, with the CSERR it was read with (R124). -/
theorem encFrame_of_decFrame {p : Params} (hp : p.valid = true) {cfg : Cfg} (gen : cfg.csgen = 0) {w : List Byte}
    {x : FrameResult} (h : decFrame p cfg.csmode w = .ok x) (v : Vector Slot Config.nslot) :
    encFrame p cfg (frameRegs x.frame x.len) (frameSlots v x.frame) = .ok (w, x.cserr) := by
  obtain ⟨mode, _⟩ := cfg
  cases gen
  exact (encFrame_eq_encode_view (view_of_decFrame hp h v)).trans (encode_of_decFrame hp h)

/-- ENC_FRAME of the bytes that WIRE holds already changes neither WLEN nor a byte of WIRE. -/
theorem FrameSent.wire_unchanged {s t : State} {w : List Byte} {c : Bit} (h : FrameSent s t w c)
    (read : readWire s = some w) : t.wlen = s.wlen ∧ ∀ k, t.byte k = s.byte k := by
  have length := readWire_length read
  refine ⟨h.wlen_eq length, fun k => ?_⟩
  by_cases hk : k < w.length
  · rw [h.byte k hk, readWire_byte read (length ▸ hk)]
  · exact h.kept k (Nat.not_lt.mp hk)

/-- Settles O51: the record that a decode leaves has what it read as its view, from which the encode sends the same
bytes; an ASDU's record is no frame, and a failed decode's is empty. -/
theorem commandComposition : Obligations.CommandComposition := by
  intro s t hp wf
  refine ⟨fun run ok _ has => ?payload, fun run ok => failsEncode_noFrame (.inr (exec_decAsdu_ok_kind run ok)),
    fun run ok gen => ?frame, fun run err => ?failed⟩
  case payload =>
    obtain ⟨w, x, read, decoded, rfl⟩ := exec_decFrame_ok run ok
    obtain ⟨L, form, sent⟩ := encAsdu_of_decFrame hp decoded has s.slots
    obtain ⟨u, run', status, wlen, bytes⟩ := exec_encAsdu_sent (s := loadFrame (s.setCmd 0) x) hp wf sent
    rw [form.payload_length] at wlen bytes
    have len : (s.byte 1).toNat = L := by
      rw [← form.len, readWire_byteAt read (by rw [form.length]; omega)]; rfl
    refine ⟨u, run', by rw [status, statusOk_st], by rw [wlen, len], fun k hk => ?_⟩
    rw [bytes k (wlen ▸ hk), payload_byte read form (wlen ▸ hk)]
  case frame =>
    obtain ⟨w, x, read, decoded, rfl⟩ := exec_decFrame_ok run ok
    obtain ⟨u, run', sent⟩ := exec_encFrame_sent (s := loadFrame (s.setCmd 0) x) hp wf
      (encFrame_of_decFrame hp gen decoded s.slots)
    obtain ⟨wlen, bytes⟩ := sent.wire_unchanged read
    exact ⟨u, run', sent.status, wlen, bytes⟩
  case failed =>
    have regs := decode_err_regs run err
    exact ⟨failsEncode_noFrame (.inl (by rw [regs]; rfl)), failsEncode_numZero (by rw [regs]; rfl)⟩

end Sys2Proof.Machine
end

section
/-! PROOFS. The errors of an encode and the state that an error leaves (spec/60_exceptions.md R290, R300): what
`enc_asdu` and `enc_frame` refuse, and that a failed operation is `fail_decode` or `fail_encode`. -/

namespace Sys2Proof.Machine

/-! ## What `enc_asdu` refuses (R190, R298) -/

theorem encAsdu_of_zero (p : Params) {r : Regs} (zero : vsqNum r.vsq = 0) (v : Vector Slot Config.nslot) :
    encAsdu p r v = .error ⟨.vsqNumberZero, 0⟩ := if_pos zero

theorem encAsdu_of_unknown {p : Params} {r : Regs} (unknown : p.lookup r.ti = none) (hn : vsqNum r.vsq ≠ 0)
    (v : Vector Slot Config.nslot) : encAsdu p r v = .error ⟨.unknownTypeId, 0⟩ := by
  simp only [encAsdu, if_neg hn, unknown]

theorem encAsdu_of_illegal {p : Params} {r : Regs} {row : Row} (found : p.lookup r.ti = some row)
    (hn : vsqNum r.vsq ≠ 0) (hs : row.seqLegal = false) (hq : vsqSq r.vsq = 1) (v : Vector Slot Config.nslot) :
    encAsdu p r v = .error ⟨.illegalSequenceMode, 0⟩ := by
  simp only [encAsdu, if_neg hn, found]
  exact if_pos ⟨hq, hs⟩

/-! ## What `enc_frame` refuses (R121, R292, R293 e) -/

/-- A record of any KIND but the three of a link frame has no frame to send. -/
theorem encFrame_of_notFrame {p : Params} {cfg : Cfg} {r : Regs} (h1 : r.kind ≠ 1) (h2 : r.kind ≠ 2)
    (h3 : r.kind ≠ 3) (v : Vector Slot Config.nslot) : encFrame p cfg r v = .error ⟨.unknownFrameStart, 0⟩ := by
  unfold encFrame
  split
  case h_1 hk => exact absurd (BitVec.eq_of_toNat_eq hk) h1
  case h_2 hk => exact absurd (BitVec.eq_of_toNat_eq hk) h2
  case h_3 hk => exact absurd (BitVec.eq_of_toNat_eq hk) h3
  case h_4 => rfl

section
variable {p : Params} {cfg : Cfg} {r : Regs} {v : Vector Slot Config.nslot} (hk : r.kind = 3) (ha : r.hasasdu = 1)
include hk ha

theorem encFrame_of_encAsdu_error {e : CodecErr} (h : encAsdu p r v = .error e) : encFrame p cfg r v = .error e := by
  rw [encFrame_asdu hk ha, h]

/-- An ASDU of more than 253 bytes has no length byte (R293 e). -/
theorem encFrame_of_long {b : List Byte} (h : encAsdu p r v = .ok b) (long : 253 < b.length) :
    encFrame p cfg r v = .error ⟨.lengthMismatch, 0⟩ := by
  rw [encFrame_asdu hk ha, h]
  exact if_pos (by omega)

end

/-- The errors of a variable frame around a payload: its length, or FATAL's refusal of REC.CS (R121, R123). -/
theorem encVariable_error {cfg : Cfg} {r : Regs} {payload : List Byte} {e : CodecErr}
    (h : encVariable cfg r payload = .error e) :
    (cfg.csmode = 2 ∧ e = ⟨.checksumMismatch, 0⟩) ∨ (253 < payload.length ∧ e = ⟨.lengthMismatch, 0⟩) := by
  unfold encVariable at h
  split at h
  · cases h; exact .inr ⟨by omega, rfl⟩
  · split at h <;> cases h
    exact .inl (csgen_error (by assumption))

/-- All errors of `enc_frame`: no link frame, FATAL's refusal of REC.CS, an ASDU that cannot be sent, or one too long. -/
theorem encFrame_error {p : Params} {cfg : Cfg} {r : Regs} {v : Vector Slot Config.nslot} {e : CodecErr}
    (h : encFrame p cfg r v = .error e) :
    (r.kind ≠ 1 ∧ r.kind ≠ 2 ∧ r.kind ≠ 3 ∧ e = ⟨.unknownFrameStart, 0⟩) ∨
    (cfg.csmode = 2 ∧ e = ⟨.checksumMismatch, 0⟩) ∨
    (r.kind = 3 ∧ r.hasasdu = 1 ∧ (encAsdu p r v = .error e ∨
      ∃ b, encAsdu p r v = .ok b ∧ 253 < b.length ∧ e = ⟨.lengthMismatch, 0⟩)) := by
  by_cases h1 : r.kind = 1
  · rw [encFrame_single h1] at h; cases h
  by_cases h2 : r.kind = 2
  · rw [encFrame_fixed h2] at h
    split at h <;> cases h
    exact .inr (.inl (csgen_error (by assumption)))
  by_cases h3 : r.kind = 3
  · by_cases ha : r.hasasdu = 1
    · rw [encFrame_asdu h3 ha] at h
      cases sent : encAsdu p r v with
      | error e' => rw [sent] at h; cases h; exact .inr (.inr ⟨h3, ha, .inl rfl⟩)
      | ok b =>
        rw [sent] at h
        rcases encVariable_error h with fatal | ⟨long, rfl⟩
        · exact .inr (.inl fatal)
        · exact .inr (.inr ⟨h3, ha, .inr ⟨b, rfl, long, rfl⟩⟩)
    · rw [encFrame_variable h3 ha] at h
      rcases encVariable_error h with fatal | ⟨long, _⟩
      · exact .inr (.inl fatal)
      · exact absurd long (Nat.not_lt_zero _)
  · rw [encFrame_of_notFrame h1 h2 h3] at h
    cases h
    exact .inl ⟨h1, h2, h3, rfl⟩

/-! ## Which kinds an encode raises (R294, R295) -/

/-- TruncatedInput and UnterminatedFrame: the two kinds that are about where the bytes of WIRE end. -/
def ErrKind.endsEarly : ErrKind → Bool
  | .truncatedInput | .unterminatedFrame => true
  | .unknownFrameStart | .lengthMismatch | .unknownTypeId | .illegalSequenceMode | .vsqNumberZero
  | .checksumMismatch => false

theorem ErrKind.code_of_not_endsEarly {e : ErrKind} (h : e.endsEarly = false) : e.code ≠ 3 ∧ e.code ≠ 4 := by
  cases e <;> cases h <;> decide

theorem encAsdu_error_kind {p : Params} {r : Regs} {v : Vector Slot Config.nslot} {e : CodecErr}
    (h : encAsdu p r v = .error e) : e.kind.endsEarly = false := by
  rcases encAsdu_cases p r v with ⟨_, h'⟩ | ⟨_, _, h'⟩ | ⟨_, _, _, _, _, h'⟩ | ⟨_, _, _, _, h'⟩ <;>
    rw [h'] at h <;> cases h
  all_goals rfl

theorem encFrame_error_kind {p : Params} {cfg : Cfg} {r : Regs} {v : Vector Slot Config.nslot} {e : CodecErr}
    (h : encFrame p cfg r v = .error e) : e.kind.endsEarly = false := by
  rcases encFrame_error h with ⟨_, _, _, rfl⟩ | ⟨_, rfl⟩ | ⟨_, _, error | ⟨_, _, _, rfl⟩⟩
  case inr.inr.inl => exact encAsdu_error_kind error
  all_goals rfl

/-- An instruction that does not decode runs the encode frame on bytes or on an error of another kind. -/
theorem exec_of_encodes {i : Instr} (hi : ¬ Decodes i) (s : State) :
    ∃ op r, exec i s = .next (encodeOp r (s.setCmd op)) ∧ ∀ e, r = .error e → e.kind.endsEarly = false := by
  rcases eq_encode_of_not_decodes hi with rfl | rfl
  · exact ⟨1, _, exec_encFrame s, fun _ => encFrame_error_kind⟩
  · exact ⟨3, _, exec_encAsdu s, fun _ error => encAsdu_error_kind (bareResult_error error)⟩

/-- No encode ends with TruncatedInput or UnterminatedFrame. -/
theorem exec_encodes_err_ne {i : Instr} {s t : State} (hi : ¬ Decodes i) (h : exec i s = .next t) :
    t.status.err ≠ 3 ∧ t.status.err ≠ 4 := by
  obtain ⟨op, r, run, kinds⟩ := exec_of_encodes hi s
  rw [run] at h
  cases h
  rcases encodeOp_cases r (s.setCmd op) with ⟨b, c, _, after⟩ | ⟨e, error, after⟩ <;> rw [after]
  · rw [storeWire_status, statusOk_err]; decide
  · exact ErrKind.code_of_not_endsEarly (kinds e error)

/-! ## The state an error leaves (R300) -/

/-- A decode that ends with ERR has taken an error, in the state in which CMD is set. -/
theorem exec_decodes_failed {i : Instr} {s t : State} (hi : Decodes i) (h : exec i s = .next t)
    (err : t.status.st = 2) : ∃ e, t = failDecode (s.setCmd (cmdAfter i s)) e := by
  have notOk : (1 : BitVec 2) ≠ 2 := by decide
  rcases exec_of_decodes hi s with ⟨f, run⟩ | ⟨f, run⟩ <;> rw [run] at h
  · obtain ⟨_, _, ⟨_, _, rfl⟩ | ⟨e, _, rfl⟩⟩ := decodeFrameOp_next h
    · exact absurd err notOk
    · exact ⟨e, rfl⟩
  · obtain ⟨_, _, ⟨_, _, rfl⟩ | ⟨e, _, rfl⟩⟩ := decodeAsduOp_next h
    · exact absurd err notOk
    · exact ⟨e, rfl⟩

/-- An encode that ends with ERR has taken an error, in the state in which CMD is set. -/
theorem exec_encodes_failed {i : Instr} {s t : State} (hi : ¬ Decodes i) (h : exec i s = .next t)
    (err : t.status.st = 2) : ∃ op e, t = failEncode (s.setCmd op) e := by
  obtain ⟨op, r, run, _⟩ := exec_of_encodes hi s
  rw [run] at h
  cases h
  rcases encodeOp_cases r (s.setCmd op) with ⟨b, c, _, after⟩ | ⟨e, _, after⟩ <;> rw [after] at err ⊢
  · exact absurd err (show (1 : BitVec 2) ≠ 2 by decide)
  · exact ⟨op, e.kind, rfl⟩

/-- Settles O28: STATUS has its form for an error, and the rest is what `fail_decode` and `fail_encode` leave. -/
theorem errorState : Obligations.ErrorState := by
  intro i s t run err
  by_cases hi : Decodes i
  · refine ⟨(exec_ends_of_decodes hi run).of_err err, fun _ => ?_, fun encodes => absurd hi encodes⟩
    obtain ⟨e, rfl⟩ := exec_decodes_failed hi run err
    exact ⟨rfl, rfl, rfl, rfl, rfl, rfl, rfl⟩
  · refine ⟨(exec_ends_of_encodes hi run).of_err err, fun decodes => absurd decodes hi, fun _ => ?_⟩
    obtain ⟨op, e, rfl⟩ := exec_encodes_failed hi run err
    exact ⟨rfl, rfl, rfl, rfl, rfl, rfl, rfl⟩

end Sys2Proof.Machine
end

section
/-! PROOFS. The protocol errors (spec/60_exceptions.md R296, R298, R299, R301): what the type identifier and the VSQ byte
decide, for a bare ASDU, for the ASDU of a variable frame and for the record that an encode sends. -/

namespace Sys2Proof

/-- A type identifier has no row exactly when it is none of the 40 (R32, R93). -/
theorem Params.lookup_eq_none_iff {p : Params} (hp : p.valid = true) (ti : Byte) :
    p.lookup ti = none ↔ ti ∉ Config.typeIds := by
  rw [← Params.valid_known hp, Params.known, Bool.not_eq_true, Option.isSome_eq_false_iff, Option.isNone_iff_eq_none]

end Sys2Proof

namespace Sys2Proof.Machine

/-! ## A header that a decode refuses -/

/-- Every ASDU that begins with this type identifier and VSQ byte and has a whole header is refused with an error of
the kind k, found off bytes into the ASDU (R184, R297). -/
def HeaderRefused (p : Params) (ti vsq : Byte) (k : ErrKind) (off : Nat) : Prop :=
  ∀ (a : Nat) (w : List Byte), 4 ≤ w.length → byteAt w 0 = ti → byteAt w 1 = vsq →
    decAsdu p a w = .error ⟨k, a + off⟩

theorem headerRefused_zero (p : Params) (ti : Byte) {vsq : Byte} (zero : vsqNum vsq = 0) :
    HeaderRefused p ti vsq .vsqNumberZero 1 := by
  rintro a w long rfl rfl
  rw [decAsdu, if_neg (Nat.not_lt.mpr long), if_pos zero]

/-- A word that the decoder rejects (R93, R94). -/
theorem decAsdu_of_reject {p : Params} {w : List Byte} {reject : Reject} (long : 4 ≤ w.length)
    (hn : vsqNum (byteAt w 1) ≠ 0) (h : decodeTypeWord p.registry (byteAt w 0) (byteAt w 1) = .error reject)
    (a : Nat) : decAsdu p a w = .error (asduReject a w reject) := by
  rw [← decodeAsduWord_eq (by omega)] at h
  simp only [decAsdu, if_neg (Nat.not_lt.mpr long), if_neg hn, h]

theorem headerRefused_unknown {p : Params} {ti vsq : Byte} (hn : vsqNum vsq ≠ 0) (unknown : p.lookup ti = none) :
    HeaderRefused p ti vsq .unknownTypeId 0 := by
  rintro a w long rfl rfl
  exact decAsdu_of_reject long hn (decodeTypeWord_of_unknown unknown _) a

theorem headerRefused_illegal {p : Params} {ti vsq : Byte} {row : Row} (hn : vsqNum vsq ≠ 0)
    (found : p.lookup ti = some row) (hs : row.seqLegal = false) (hq : vsqSq vsq = 1) :
    HeaderRefused p ti vsq .illegalSequenceMode 1 := by
  rintro a w long rfl rfl
  exact decAsdu_of_reject long hn (decodeTypeWord_of_illegal found hq hs) a

/-! ## How the refusal reaches STATUS -/

/-- DEC_ASDU: the ASDU is at offset 0. -/
theorem HeaderRefused.bare {s : State} {k : ErrKind} {off : Nat}
    (refused : HeaderRefused s.par (s.byte 0) (s.byte 1) k off) (long : 4 ≤ s.wlen.toNat)
    (inWire : s.wlen.toNat ≤ s.par.bufsz) : FailsDecode .decAsdu s 2 k.code off := by
  have read := readWire_of_le inWire
  have error := refused 0 _ (by rw [readWire_length read]; exact long) (readWire_byte read (by omega))
    (readWire_byte read (by omega))
  rw [Nat.zero_add] at error
  exact failsDecode_of_decAsdu read error

/-- DEC_FRAME: the ASDU of a variable frame is at offset 6, and FATAL's test of the checksum comes first. -/
theorem HeaderRefused.framed {s : State} {L : Nat} {k : ErrKind} {off : Nat}
    (refused : HeaderRefused s.par (s.byte 6) (s.byte 7) k off) (len : (s.byte 1).toNat = L) (long : 6 ≤ L)
    (wlen : s.wlen.toNat = L + 6) (inWire : s.wlen.toNat ≤ s.par.bufsz) (first : s.byte 0 = 0x68)
    (lenAgain : s.byte 2 = s.byte 1) (start : s.byte 3 = 0x68) (stop : s.byte (L + 5) = 0x16)
    (policy : s.cfg.csmode = 2 → s.cserrAt (s.byte (L + 4)) 4 L = 0) :
    FailsDecode .decFrame s 0 k.code (6 + off) := by
  have read := readWire_of_le inWire
  have form := isVariable_of_wire read (by omega) wlen len lenAgain start stop
  have error := refused 6 _ (by rw [form.payload_length]; omega) (payload_byte read form (by omega))
    (payload_byte read form (by omega))
  exact failsDecode_of_payload read form first policy (by omega) error

/-- Both encodes: ENC_FRAME sends the same ASDU. -/
theorem failsEncode_of_encAsdu_error {s : State} {e : CodecErr} (h : encAsdu s.par s.regs s.slots = .error e) :
    FailsEncode .encAsdu s 3 e.kind.code ∧
      (s.regs.kind = 3 → s.regs.hasasdu = 1 → FailsEncode .encFrame s 1 e.kind.code) :=
  ⟨failsEncode_of_encAsdu h, fun hk ha => failsEncode_of_encFrame (encFrame_of_encAsdu_error hk ha h)⟩

/-! ## The three errors -/

/-- Settles O37: NUM is tested before the type identifier. -/
theorem vsqNumberZero : Obligations.VsqNumberZero :=
  ⟨fun _ long inWire zero => (headerRefused_zero _ _ zero).bare long inWire,
    fun _ _ len long wlen inWire first lenAgain start stop policy zero =>
      (headerRefused_zero _ _ zero).framed len long wlen inWire first lenAgain start stop policy,
    fun _ zero => failsEncode_of_encAsdu_error (encAsdu_of_zero _ zero _)⟩

/-- Settles O35: the type identifier has no row, and the rows are those of the 40. -/
theorem unknownTypeId : Obligations.UnknownTypeId := by
  refine ⟨fun _ long inWire hn unknown => (headerRefused_unknown hn unknown).bare long inWire,
    fun _ _ len long wlen inWire first lenAgain start stop policy hn unknown =>
      (headerRefused_unknown hn unknown).framed len long wlen inWire first lenAgain start stop policy,
    fun _ hn unknown => failsEncode_of_encAsdu_error (encAsdu_of_unknown unknown hn _), fun p ti hp => ?values⟩
  case values => rw [Params.lookup_eq_none_iff hp, mem_typeIds_iff]

/-- Settles O36: SQ is 1 and the row of the type identifier does not allow it. -/
theorem illegalSequenceMode : Obligations.IllegalSequenceMode :=
  ⟨fun _ _ long inWire hn found hs hq => (headerRefused_illegal hn found hs hq).bare long inWire,
    fun _ _ _ len long wlen inWire first lenAgain start stop policy hn found hs hq =>
      (headerRefused_illegal hn found hs hq).framed len long wlen inWire first lenAgain start stop policy,
    fun _ _ hn found hs hq => failsEncode_of_encAsdu_error (encAsdu_of_illegal found hn hs hq _)⟩

end Sys2Proof.Machine
end

section
/-! PROOFS. The structural errors of a link frame (spec/60_exceptions.md R292 to R295) in the order of their tests (R112,
R113, R297): what each frame's decode answers on bytes that are not one, and DEC_FRAME on such bytes in WIRE. -/

namespace Sys2Proof.Machine

/-! ## Bytes that are no frame -/

theorem decSingle_of_excess {w : List Byte} (h : 1 < w.length) (neg : Bit) :
    decSingle neg w = .error ⟨.lengthMismatch, 1⟩ := if_pos h

section
variable {m : BitVec 2} {w : List Byte}

theorem decFixed_of_short (h : w.length < 5) : decFixed m w = .error ⟨.truncatedInput, w.length⟩ := if_pos h

/-- The end byte is tested before the excess length (R295). -/
theorem decFixed_of_stop (h : 5 ≤ w.length) (stop : byteAt w 4 ≠ 0x16) :
    decFixed m w = .error ⟨.unterminatedFrame, 4⟩ := by
  rw [decFixed, if_neg (by omega), if_pos stop]

theorem decFixed_of_excess (h : 5 < w.length) (stop : byteAt w 4 = 0x16) :
    decFixed m w = .error ⟨.lengthMismatch, 5⟩ := by
  rw [decFixed, if_neg (by omega), if_neg (not_not.mpr stop), if_pos h]

variable {p : Params}

theorem decVariable_of_one (h : w.length < 2) : decVariable p m w = .error ⟨.truncatedInput, w.length⟩ := if_pos h

theorem decVariable_of_small (h : 2 ≤ w.length) (small : (byteAt w 1).toNat < 2) :
    decVariable p m w = .error ⟨.lengthMismatch, 1⟩ := by
  rw [decVariable, if_neg (by omega), if_pos small]

theorem decVariable_of_two (h : w.length = 2) (two_le : 2 ≤ (byteAt w 1).toNat) :
    decVariable p m w = .error ⟨.truncatedInput, w.length⟩ := by
  rw [decVariable, if_neg (by omega), if_neg (by omega), if_pos (by omega)]

theorem decVariable_of_differ (h : 3 ≤ w.length) (two_le : 2 ≤ (byteAt w 1).toNat) (differ : byteAt w 2 ≠ byteAt w 1) :
    decVariable p m w = .error ⟨.lengthMismatch, 2⟩ := by
  rw [decVariable, if_neg (by omega), if_neg (by omega), if_neg (by omega), if_pos differ]

theorem decVariable_of_three (h : w.length = 3) (two_le : 2 ≤ (byteAt w 1).toNat) (lenAgain : byteAt w 2 = byteAt w 1) :
    decVariable p m w = .error ⟨.truncatedInput, w.length⟩ := by
  rw [decVariable, if_neg (by omega), if_neg (by omega), if_neg (by omega), if_neg (not_not.mpr lenAgain),
    if_pos (by omega)]

theorem decVariable_of_start (h : 4 ≤ w.length) (two_le : 2 ≤ (byteAt w 1).toNat) (lenAgain : byteAt w 2 = byteAt w 1)
    (start : byteAt w 3 ≠ 0x68) : decVariable p m w = .error ⟨.unknownFrameStart, 3⟩ := by
  rw [decVariable, if_neg (by omega), if_neg (by omega), if_neg (by omega), if_neg (not_not.mpr lenAgain),
    if_neg (by omega), if_pos start]

/-- The four bytes that a variable frame begins with pass their tests. -/
theorem decVariable_of_head (h : 4 ≤ w.length) (two_le : 2 ≤ (byteAt w 1).toNat) (lenAgain : byteAt w 2 = byteAt w 1)
    (start : byteAt w 3 = 0x68) : decVariable p m w = decVariableBody p m (byteAt w 1).toNat w := by
  rw [decVariable, if_neg (by omega), if_neg (by omega), if_neg (by omega), if_neg (not_not.mpr lenAgain),
    if_neg (by omega), if_neg (not_not.mpr start)]

variable {L : Nat}

theorem decVariableBody_of_short (h : w.length < L + 6) :
    decVariableBody p m L w = .error ⟨.truncatedInput, w.length⟩ := if_pos h

/-- The end byte is tested before the excess length, the checksum and the payload (R295). -/
theorem decVariableBody_of_stop (h : L + 6 ≤ w.length) (stop : byteAt w (L + 5) ≠ 0x16) :
    decVariableBody p m L w = .error ⟨.unterminatedFrame, L + 5⟩ := by
  rw [decVariableBody, if_neg (by omega), if_pos stop]

theorem decVariableBody_of_excess (h : L + 6 < w.length) (stop : byteAt w (L + 5) = 0x16) :
    decVariableBody p m L w = .error ⟨.lengthMismatch, L + 6⟩ := by
  rw [decVariableBody, if_neg (by omega), if_neg (not_not.mpr stop), if_pos h]

end

/-! ## DEC_FRAME on such bytes in WIRE (R116) -/

/-- A decode with WLEN at most BUFSZ is given some bytes (R22). -/
theorem exists_readWire {s : State} (inWire : s.wlen.toNat ≤ s.par.bufsz) : ∃ w, readWire s = some w :=
  ⟨_, readWire_of_le inWire⟩

/-- A first byte that is none of the four (R92). -/
theorem decodeLink_of_noStart {b : Byte} (h1 : b ≠ 0xE5) (h2 : b ≠ 0xA2) (h3 : b ≠ 0x10) (h4 : b ≠ 0x68)
    (rest : List Byte) : decodeLink (b :: rest) = .error .unknownFrameStart := by
  simp only [decodeLink]
  split
  case h_1 hb => exact absurd (BitVec.eq_of_toNat_eq hb) h1
  case h_2 hb => exact absurd (BitVec.eq_of_toNat_eq hb) h2
  case h_3 hb => exact absurd (BitVec.eq_of_toNat_eq hb) h3
  case h_4 hb => exact absurd (BitVec.eq_of_toNat_eq hb) h4
  case h_5 => rfl

theorem decFrame_of_reject {w : List Byte} {r : Reject} (h : decodeLink w = .error r) (p : Params) (m : BitVec 2) :
    decFrame p m w = .error (linkReject r) := by
  simp only [decFrame, h]

/-- The row that a single character's byte selects, and what it runs (R110, R111). -/
theorem decFrame_of_single {s : State} {w : List Byte} (read : readWire s = some w) (pos : 0 < s.wlen.toNat)
    (first : s.byte 0 = 0xE5 ∨ s.byte 0 = 0xA2) (p : Params) (m : BitVec 2) :
    ∃ neg, decFrame p m w = decSingle neg w := by
  rcases first with first | first
  · exact ⟨0, decFrame_of_decodeLink (i := .ack) (decodeLink_of_first read pos (by rw [first]; rfl)) p m⟩
  · exact ⟨1, decFrame_of_decodeLink (i := .nack) (decodeLink_of_first read pos (by rw [first]; rfl)) p m⟩

section
variable {s : State} {w : List Byte} {e : CodecErr} (read : readWire s = some w)
include read

theorem failsDecode_of_decFixed (pos : 0 < s.wlen.toNat) (first : s.byte 0 = 0x10)
    (h : decFixed s.cfg.csmode w = .error e) : FailsDecode .decFrame s 0 e.kind.code e.pos :=
  failsDecode_of_first (i := .fixedFrame) read pos (by rw [first]; rfl) h

theorem failsDecode_of_decVariable (pos : 0 < s.wlen.toNat) (first : s.byte 0 = 0x68)
    (h : decVariable s.par s.cfg.csmode w = .error e) : FailsDecode .decFrame s 0 e.kind.code e.pos :=
  failsDecode_of_first (i := .variableFrame) read pos (by rw [first]; rfl) h

/-- An error of a variable frame past the four bytes it begins with. -/
theorem failsDecode_of_decVariableBody (long : 4 ≤ s.wlen.toNat) (first : s.byte 0 = 0x68)
    (two_le : 2 ≤ (s.byte 1).toNat) (lenAgain : s.byte 2 = s.byte 1) (start : s.byte 3 = 0x68)
    (h : decVariableBody s.par s.cfg.csmode (s.byte 1).toNat w = .error e) :
    FailsDecode .decFrame s 0 e.kind.code e.pos := by
  have length := readWire_length read
  have byte {k : Nat} (hk : k < 4) : byteAt w k = s.byte k := readWire_byte read (by omega)
  refine failsDecode_of_decVariable read (by omega) first ?_
  rw [decVariable_of_head (by omega) (by rwa [byte (by decide)]) (by rwa [byte (by decide), byte (by decide)])
    ((byte (by decide)).trans start), byte (by decide)]
  exact h

end

/-! ## The statements -/

/-- Settles O30: the dispatch knows four bytes, a variable frame has one of them twice, and an encode has three KINDs. -/
theorem unknownFrameStart : Obligations.UnknownFrameStart := by
  refine ⟨fun s pos inWire h1 h2 h3 h4 => ?first, fun s long inWire first two_le lenAgain start => ?second,
    fun s kind => ?encode⟩
  case first =>
    obtain ⟨w, read⟩ := exists_readWire inWire
    have length := readWire_length read
    have byte := readWire_byte read pos
    refine failsDecode_of_decFrame (e := ⟨.unknownFrameStart, 0⟩) read ?_
    cases w with
    | nil => exact absurd length (Nat.ne_of_lt pos)
    | cons b rest =>
      change b = s.byte 0 at byte
      rw [byte, decFrame_of_reject (decodeLink_of_noStart h1 h2 h3 h4 rest)]
      rfl
  case second =>
    obtain ⟨w, read⟩ := exists_readWire inWire
    have length := readWire_length read
    have byte {k : Nat} (hk : k < 4) := readWire_byte read (k := k) (by omega)
    exact failsDecode_of_decVariable read (by omega) first
      (decVariable_of_start (by omega) (by rwa [byte (by decide)]) (by rwa [byte (by decide), byte (by decide)])
        (by rwa [byte (by decide)]))
  case encode =>
    refine failsEncode_of_encFrame (e := ⟨.unknownFrameStart, 0⟩) (encFrame_of_notFrame ?_ ?_ ?_ _) <;>
      (rcases kind with h | h | h | h | h <;> rw [h] <;> decide)

/-- Settles O31: the length byte is tested as it is read, the excess once the end byte is right. -/
theorem frameLengthMismatch : Obligations.FrameLengthMismatch := by
  refine ⟨fun s inWire => ?decode, fun s b hk ha sent long =>
    failsEncode_of_encFrame (e := ⟨.lengthMismatch, 0⟩) (encFrame_of_long hk ha sent long)⟩
  obtain ⟨w, read⟩ := exists_readWire inWire
  have length := readWire_length read
  have byte {k : Nat} (hk : k < s.wlen.toNat) := readWire_byte read hk
  refine ⟨fun long first two_le differ => ?differ, fun long first small => ?small, fun long first => ?single,
    fun long first stop => ?fixed, fun first two_le lenAgain start long stop => ?framed⟩
  case differ =>
    exact failsDecode_of_decVariable read (by omega) first
      (decVariable_of_differ (by omega) (by rwa [byte (by omega)]) (by rwa [byte (by omega), byte (by omega)]))
  case small =>
    exact failsDecode_of_decVariable read (by omega) first
      (decVariable_of_small (by omega) (by rwa [byte (by omega)]))
  case single =>
    obtain ⟨neg, run⟩ := decFrame_of_single read (by omega) first s.par s.cfg.csmode
    exact failsDecode_of_decFrame read (run.trans (decSingle_of_excess (by omega) neg))
  case fixed =>
    exact failsDecode_of_decFixed read (by omega) first
      (decFixed_of_excess (by omega) ((byte (by omega)).trans stop))
  case framed =>
    exact failsDecode_of_decVariableBody read (by omega) first two_le lenAgain start
      (decVariableBody_of_excess (by omega) ((byte (by omega)).trans stop))

/-- Settles O33: each byte's presence is tested before the byte, and an encode's bytes have no end to miss. -/
theorem frameTruncated : Obligations.FrameTruncated := by
  refine ⟨fun s inWire => ?decode, fun i s t encodes run => (exec_encodes_err_ne encodes run).1⟩
  obtain ⟨w, read⟩ := exists_readWire inWire
  have length := readWire_length read
  have byte {k : Nat} (hk : k < s.wlen.toNat) := readWire_byte read hk
  have number {n : BitVec 12} (h : s.wlen = n) : s.wlen.toNat = n.toNat := congrArg _ h
  refine ⟨fun zero => ?empty, fun pos short first => ?fixed, fun one first => ?one, fun two first two_le => ?two,
    fun three first two_le lenAgain => ?three, fun long first two_le lenAgain start short => ?framed⟩
  case empty =>
    have nil := List.length_eq_zero_iff.mp (length.trans (number zero))
    exact failsDecode_of_decFrame (e := ⟨.truncatedInput, 0⟩) read (by rw [nil]; rfl)
  case fixed =>
    rw [← length]
    exact failsDecode_of_decFixed read pos first (decFixed_of_short (length ▸ short))
  case one =>
    have wlen : s.wlen.toNat = 1 := number one
    rw [← wlen, ← length]
    exact failsDecode_of_decVariable read (by omega) first (decVariable_of_one (by omega))
  case two =>
    have wlen : s.wlen.toNat = 2 := number two
    have error := decVariable_of_two (p := s.par) (m := s.cfg.csmode) (length.trans wlen) (by rwa [byte (by omega)])
    rw [length, wlen] at error
    exact failsDecode_of_decVariable read (by omega) first error
  case three =>
    have wlen : s.wlen.toNat = 3 := number three
    have error := decVariable_of_three (p := s.par) (m := s.cfg.csmode) (length.trans wlen) (by rwa [byte (by omega)])
      (by rwa [byte (by omega), byte (by omega)])
    rw [length, wlen] at error
    exact failsDecode_of_decVariable read (by omega) first error
  case framed =>
    rw [← length]
    exact failsDecode_of_decVariableBody read long first two_le lenAgain start
      (decVariableBody_of_short (length ▸ short))

/-- A single character's errors: no byte, or more than one (R110). -/
theorem decFrame_single_error {s : State} {w : List Byte} {p : Params} {m : BitVec 2} {e : CodecErr}
    (read : readWire s = some w) (first : s.byte 0 = 0xE5 ∨ s.byte 0 = 0xA2) (h : decFrame p m w = .error e) :
    e.kind = .truncatedInput ∨ e.kind = .lengthMismatch := by
  rcases Nat.eq_zero_or_pos s.wlen.toNat with zero | pos
  · rw [List.length_eq_zero_iff.mp ((readWire_length read).trans zero)] at h
    cases h
    exact .inl rfl
  · obtain ⟨neg, run⟩ := decFrame_of_single read pos first p m
    rw [run, decSingle] at h
    split at h <;> cases h
    exact .inr rfl

/-- Settles O34: the end byte is the first test of the bytes up to it, and only a fixed and a variable frame have one. -/
theorem unterminatedFrame : Obligations.UnterminatedFrame := by
  refine ⟨fun s inWire => ?decode, fun i s t encodes run => (exec_encodes_err_ne encodes run).2,
    fun s t run first => ?single⟩
  case decode =>
    obtain ⟨w, read⟩ := exists_readWire inWire
    have length := readWire_length read
    have byte {k : Nat} (hk : k < s.wlen.toNat) := readWire_byte read hk
    refine ⟨fun long first stop => ?fixed, fun first two_le lenAgain start long stop => ?framed⟩
    case fixed =>
      exact failsDecode_of_decFixed read (by omega) first (decFixed_of_stop (by omega) (by rwa [byte (by omega)]))
    case framed =>
      exact failsDecode_of_decVariableBody read (by omega) first two_le lenAgain start
        (decVariableBody_of_stop (by omega) (by rwa [byte (by omega)]))
  case single =>
    rw [exec_decFrame] at run
    obtain ⟨w, read, ⟨x, _, rfl⟩ | ⟨e, error, rfl⟩⟩ := decodeFrameOp_next run
    · exact (by decide : (0 : BitVec 4) ≠ 4)
    · rw [failDecode_status, statusErr_err]
      rcases decFrame_single_error (s := s.setCmd 0) read first error with kind | kind <;> rw [kind] <;> decide

end Sys2Proof.Machine
end

section
/-! PROOFS. What is never an error (spec/60_exceptions.md R309; spec/43_asdu_dispatch.md R183): two inputs that agree in
what the tests read have the same error, whatever else they hold. -/

namespace Sys2Proof.Machine

/-- Two chains of tests that agree up to their last branches answer the same where the last branches do. -/
theorem ite_eq_of_else {α : Type} {c : Prop} [Decidable c] {x y z answer : α}
    (h : (if c then x else y) = answer) (last : ¬ c → y = answer → z = answer) :
    (if c then x else z) = answer := by
  by_cases hc : c
  · rwa [if_pos hc] at h ⊢
  · rw [if_neg hc] at h ⊢
    exact last hc h

/-! ## The bytes of an ASDU after its first two (R183) -/

section
variable {p : Params} {a : Nat} {w w' : List Byte} {e : CodecErr} (length : w'.length = w.length)
include length

theorem decTyped_error_congr {ti : Byte} {sq : Bit} {num : BitVec 7} (h : decTyped p ti sq num a w = .error e) :
    decTyped p ti sq num a w' = .error e := by
  unfold decTyped at h ⊢
  rw [length]
  refine ite_eq_of_else h fun _ h => ite_eq_of_else h fun _ h => ?_
  cases found : p.lookup ti with
  | none => rw [found] at h; exact h
  | some row =>
    rw [found] at h
    exact ite_eq_of_else h fun _ h => ite_eq_of_else h fun _ h => ite_eq_of_else h fun _ ok => nomatch ok

theorem decAsduInstr_error_congr {i : Instr} (h : decAsduInstr p i a w = .error e) :
    decAsduInstr p i a w' = .error e := by
  cases word : i.asduWord with
  | none => rwa [decAsduInstr_of_no_word word] at h ⊢
  | some word' =>
    rw [decAsduInstr_of_word word] at h ⊢
    exact decTyped_error_congr length h

theorem asduReject_congr (r : Reject) : asduReject a w' r = asduReject a w r := by
  cases r <;> simp only [asduReject, length]

/-- An ASDU's error is decided by its length and, if that covers a header, its first two bytes. -/
theorem decAsdu_error_congr (word : 4 ≤ w.length → byteAt w' 0 = byteAt w 0 ∧ byteAt w' 1 = byteAt w 1)
    (h : decAsdu p a w = .error e) : decAsdu p a w' = .error e := by
  unfold decAsdu at h ⊢
  rw [length]
  refine ite_eq_of_else h fun long h => ?_
  obtain ⟨ti, vsq⟩ := word (by omega)
  rw [vsq]
  refine ite_eq_of_else h fun _ h => ?_
  rw [decodeAsduWord_eq (by omega), ti, vsq, ← decodeAsduWord_eq (by omega)]
  cases decoded : decodeAsduWord p.registry w with
  | error r => rw [decoded] at h; exact (congrArg _ (asduReject_congr length r)).trans h
  | ok i => rw [decoded] at h; exact decAsduInstr_error_congr length h

/-! ## The bytes of a frame (R309) -/

theorem decodeLink_congr (first : byteAt w' 0 = byteAt w 0) : decodeLink w' = decodeLink w := by
  match w, w', length with
  | [], [], _ => rfl
  | b :: _, b' :: _, _ =>
    have same : b' = b := first
    simp only [decodeLink, same]

theorem decSingle_error_congr {neg : Bit} (h : decSingle neg w = .error e) : decSingle neg w' = .error e := by
  unfold decSingle at h ⊢
  rw [length]
  exact ite_eq_of_else h fun _ ok => nomatch ok

theorem decPayload_error_congr {L : Nat} (word : 6 ≤ L → byteAt w' 6 = byteAt w 6 ∧ byteAt w' 7 = byteAt w 7)
    (h : decPayload p L w = .error e) : decPayload p L w' = .error e := by
  unfold decPayload at h ⊢
  refine ite_eq_of_else h fun _ h => ?_
  cases payload : decAsdu p 6 (slice w 6 (L + 4)) with
  | ok d => rw [payload] at h; cases h
  | error e' =>
    rw [payload] at h
    have same : (slice w' 6 (L + 4)).length = (slice w 6 (L + 4)).length := by rw [slice_length, slice_length, length]
    rw [decAsdu_error_congr same (fun long => ?_) payload]
    · exact h
    · have size : 6 ≤ L := by rw [slice_length] at long; omega
      simpa only [byteAt_slice _ (show 0 < L + 4 - 6 by omega), byteAt_slice _ (show 1 < L + 4 - 6 by omega)] using
        word size

variable {m : BitVec 2} (hm : m ≠ csFatal)
include hm

theorem decFixed_error_congr (stop : byteAt w' 4 = byteAt w 4) (h : decFixed m w = .error e) :
    decFixed m w' = .error e := by
  unfold decFixed at h ⊢
  rw [length, stop]
  refine ite_eq_of_else h fun _ h => ite_eq_of_else h fun _ h => ite_eq_of_else h fun _ h => ?_
  rw [if_neg fun fatal => hm fatal.1] at h
  cases h

theorem decVariableBody_error_congr {L : Nat} (stop : byteAt w' (L + 5) = byteAt w (L + 5))
    (word : 6 ≤ L → byteAt w' 6 = byteAt w 6 ∧ byteAt w' 7 = byteAt w 7)
    (h : decVariableBody p m L w = .error e) : decVariableBody p m L w' = .error e := by
  unfold decVariableBody at h ⊢
  rw [length, stop]
  refine ite_eq_of_else h fun _ h => ite_eq_of_else h fun _ h => ite_eq_of_else h fun _ h => ?_
  rw [if_neg fun fatal => hm fatal.1] at h ⊢
  cases payload : decPayload p L w with
  | ok asdu => rw [payload] at h; cases h
  | error e' =>
    rw [payload] at h
    rw [decPayload_error_congr length word payload]
    exact h

theorem decVariable_error_congr (len : byteAt w' 1 = byteAt w 1) (lenAgain : byteAt w' 2 = byteAt w 2)
    (start : byteAt w' 3 = byteAt w 3) (stop : byteAt w' ((byteAt w 1).toNat + 5) = byteAt w ((byteAt w 1).toNat + 5))
    (word : 6 ≤ (byteAt w 1).toNat → byteAt w' 6 = byteAt w 6 ∧ byteAt w' 7 = byteAt w 7)
    (h : decVariable p m w = .error e) : decVariable p m w' = .error e := by
  unfold decVariable at h ⊢
  rw [length, len, lenAgain, start]
  exact ite_eq_of_else h fun _ h => ite_eq_of_else h fun _ h => ite_eq_of_else h fun _ h =>
    ite_eq_of_else h fun _ h => ite_eq_of_else h fun _ h => ite_eq_of_else h fun _ h =>
      decVariableBody_error_congr length hm stop word h

end

/-- Outside FATAL mode a frame's error is decided by the bytes that the tests of its form read. -/
theorem decFrame_error_congr {p : Params} {m : BitVec 2} (hm : m ≠ csFatal) {w w' : List Byte} {e : CodecErr}
    (length : w'.length = w.length) (first : byteAt w' 0 = byteAt w 0)
    (fixed : byteAt w 0 = 0x10 → byteAt w' 4 = byteAt w 4)
    (framed : byteAt w 0 = 0x68 →
      byteAt w' 1 = byteAt w 1 ∧ byteAt w' 2 = byteAt w 2 ∧ byteAt w' 3 = byteAt w 3 ∧
        byteAt w' ((byteAt w 1).toNat + 5) = byteAt w ((byteAt w 1).toNat + 5) ∧
        (6 ≤ (byteAt w 1).toNat → byteAt w' 6 = byteAt w 6 ∧ byteAt w' 7 = byteAt w 7))
    (h : decFrame p m w = .error e) : decFrame p m w' = .error e := by
  have dispatch := decodeLink_congr length first
  cases decoded : decodeLink w with
  | error r =>
    rw [decFrame_of_reject decoded] at h
    rwa [decFrame_of_reject (dispatch.trans decoded)]
  | ok i =>
    rw [decFrame_of_decodeLink decoded] at h
    rw [decFrame_of_decodeLink (dispatch.trans decoded)]
    obtain ⟨level, rest, rfl⟩ := decodeLink_ok decoded
    cases i <;> cases level
    case ok.ack.refl => exact decSingle_error_congr length h
    case ok.nack.refl => exact decSingle_error_congr length h
    case ok.fixedFrame.refl => exact decFixed_error_congr length hm (fixed rfl) h
    case ok.variableFrame.refl =>
      obtain ⟨len, lenAgain, start, stop, word⟩ := framed rfl
      exact decVariable_error_congr length hm len lenAgain start stop word h

/-! ## The record that an encode sends (R309) -/

/-- A slot has no bytes past GMAX to send (R29). -/
theorem slotGroupBytes_min (g : Nat) : slotGroupBytes g = slotGroupBytes (min g Config.gmax) := by
  funext sl
  rw [slotGroupBytes, List.take_eq_take_min, Vector.length_toList]
  rfl

theorem slotDiscreteBytes_min (g : Nat) : slotDiscreteBytes g = slotDiscreteBytes (min g Config.gmax) :=
  funext fun sl => congrArg (put16 sl.addr ++ ·) (congrFun (slotGroupBytes_min g) sl)

/-- The number of bytes that an encode sends for the objects does not depend on what the slots hold. -/
theorem encObjs_length_congr (g : Nat) (sq : Bit) (num : BitVec 7) (v v' : Vector Slot Config.nslot) :
    (encObjs g sq num v').length = (encObjs g sq num v).length := by
  have size (v : Vector Slot Config.nslot) :
      (encObjs g sq num v).length = objsSize (min g Config.gmax) sq num := by
    rw [← encObjs_length _ sq num v (Nat.min_le_right ..), encObjs, slotDiscreteBytes_min, slotGroupBytes_min]
    rfl
  rw [size v, size v']

section
variable {p : Params} {r r' : Regs} {v : Vector Slot Config.nslot} (ti : r'.ti = r.ti) (vsq : r'.vsq = r.vsq)
  (v' : Vector Slot Config.nslot)
include ti vsq

theorem encAsdu_error_congr {e : CodecErr} (h : encAsdu p r v = .error e) : encAsdu p r' v' = .error e := by
  rcases encAsdu_cases p r v with ⟨zero, h'⟩ | ⟨hn, unknown, h'⟩ | ⟨row, hn, found, hq, hs, h'⟩ | ⟨_, _, _, _, h'⟩ <;>
    rw [h'] at h <;> cases h
  · exact encAsdu_of_zero p (vsq ▸ zero) v'
  · exact encAsdu_of_unknown (ti ▸ unknown) (vsq ▸ hn) v'
  · exact encAsdu_of_illegal (ti ▸ found) (vsq ▸ hn) hs (vsq ▸ hq) v'

theorem encAsdu_length_congr {b : List Byte} (h : encAsdu p r v = .ok b) :
    ∃ b', encAsdu p r' v' = .ok b' ∧ b'.length = b.length := by
  obtain ⟨row, found, hn, legal, rfl⟩ := encAsdu_ok h
  refine ⟨_, encAsdu_of_legal (ti ▸ found) (vsq ▸ hn) (vsq ▸ legal) v', ?_⟩
  rw [vsq, List.length_append, List.length_append, encObjs_length_congr _ _ _ v v']
  rfl

/-- Outside FATAL mode an encode's error is decided by KIND, HASASDU, TI and VSQ. -/
theorem encFrame_error_congr (kind : r'.kind = r.kind) (has : r'.hasasdu = r.hasasdu) {cfg : Cfg}
    (hm : cfg.csmode ≠ 2) {e : CodecErr} (h : encFrame p cfg r v = .error e) : encFrame p cfg r' v' = .error e := by
  rcases encFrame_error h with ⟨h1, h2, h3, rfl⟩ | ⟨fatal, _⟩ | ⟨hk, ha, error | ⟨b, sent, long, rfl⟩⟩
  · exact encFrame_of_notFrame (kind ▸ h1) (kind ▸ h2) (kind ▸ h3) v'
  · exact absurd fatal hm
  · exact encFrame_of_encAsdu_error (kind.trans hk) (has.trans ha) (encAsdu_error_congr ti vsq v' error)
  · obtain ⟨b', sent', same⟩ := encAsdu_length_congr ti vsq v' sent
    exact encFrame_of_long (kind.trans hk) (has.trans ha) sent' (same ▸ long)

end

/-- Settles O39: no test of a decode reads more than the premises fix, and no test of an encode reads the slots. -/
theorem contentIsNeverAnError : Obligations.ContentIsNeverAnError :=
  ⟨fun _ _ _ _ _ _ _ length => decAsdu_error_congr (congrArg (· + 2) length.symm) fun _ => ⟨rfl, rfl⟩,
    fun _ _ _ _ _ hm length first fixed framed => decFrame_error_congr hm length first fixed framed,
    fun _ _ _ _ _ v' _ kind has ti vsq => ⟨encAsdu_error_congr ti vsq v',
      fun hm => encFrame_error_congr ti vsq v' kind has hm⟩⟩

end Sys2Proof.Machine
end

section
/-! PROOFS. A START straight after reset (spec/70_reset_and_hazards.md R332): WLEN and REC at their reset values (R44)
leave the two decodes no byte and the two encodes no record. -/

namespace Sys2Proof.Machine

/-- With WLEN 0 a decode is given no bytes (R22). -/
theorem readWire_of_empty {s : State} (empty : s.wlen = 0) : readWire s = some [] := by
  have wlen : s.wlen.toNat = 0 := congrArg BitVec.toNat empty
  obtain ⟨w, read⟩ := exists_readWire (s := s) (by omega)
  have nil : w = [] := List.length_eq_zero_iff.mp ((readWire_length read).trans wlen)
  rw [read, nil]

/-- Settles O58: whatever WIRE and the slots were drawn as, WLEN is 0, KIND is no link frame's and NUM is 0. -/
theorem startAfterReset : Obligations.StartAfterReset := by
  intro u w l s reset
  obtain ⟨_, _, empty, _, regs⟩ := resetValues.1 s (.inr ⟨u, w, l, reset⟩)
  have read := readWire_of_empty empty
  have kind : s.regs.kind = 0 := congrArg Regs.kind regs
  have num : vsqNum s.regs.vsq = 0 := congrArg (fun r => vsqNum r.vsq) regs
  exact ⟨failsDecode_of_decFrame (e := ⟨.truncatedInput, 0⟩) read rfl,
    failsDecode_of_decAsdu (e := ⟨.truncatedInput, 0⟩) read rfl, failsEncode_noFrame (.inl kind),
    failsEncode_numZero num⟩

end Sys2Proof.Machine
end
